-- ==== Sys2Proof/Word.lean ====
section
/-! DEFINITION. The byte, its unsigned value as an unbounded integer, and the names of timestamps
(spec/00_scope.md section 5.1 and rule R5, rows BYTE_W and P_TIME). -/

namespace Sys2Proof

/-- `Byte`: an unsigned 8 bit value; bit 0 is the least significant bit (spec/00_scope.md section 5.1). -/
abbrev Byte := BitVec 8

/-- `zext`: a byte taken as its unsigned value 0 to 255 before any arithmetic, which is on unbounded integers
(spec/00_scope.md section 5.1; rules R58, R59, R66). -/
def zext (b : Byte) : Int := (b.toNat : Int)

/-- The symbolic name of a timestamp in a trace, `t0`, `t1`, … (rule R65): what State holds, so that it stays plain data.
The type of timestamps itself, `P_TIME`, is a parameter (rule R5): which value of it a name stands for is said by
`Parameters`. A structure, not a number: no order and no arithmetic applies. DESIGN CHOICE, safe: log entry 6. -/
structure Time where
  name : Nat
  deriving DecidableEq, Repr

end Sys2Proof
end

