-- ==== Sys2Proof/Syntax.lean ====
section
/-! DEFINITION. The formats: input events (spec/30_encoding.md section 1), the four classes, the output record
(spec/10_state.md section 6), the operands of the opcode table's rows, and `Instr`, one constructor per row of
spec/opcode_table.json. The formats that carry timestamps take their type as an argument, `P_TIME` (rule R5); the machine
runs on them with the names of Sys2Proof/Word.lean (log entry 6). -/

namespace Sys2Proof

/-- The two directions of a byte group (spec/00_scope.md section 5.1, `Dir`). -/
inductive Dir where
  | toChip
  | fromChip
  deriving DecidableEq, Repr

/-- A byte group carries the bytes of BOTH directions and two timestamps (rules R50, R51). Nothing makes the two
lanes equally long (rule R53). The spec's decision D2: log entry 10. -/
structure GroupOver (T : Type) where
  toChip : List Byte
  fromChip : List Byte
  ts : T
  te : T
  deriving DecidableEq, Repr

/-- A byte group as the machine takes it. -/
abbrev Group := GroupOver Time

/-- `g.bytes(d)`: the lane of a direction (rule R51). -/
def Group.bytes (g : Group) : Dir → List Byte
  | .toChip => g.toChip
  | .fromChip => g.fromChip

/-- An input event: a closed three-way sum (rule R50). -/
inductive EventOver (T : Type) where
  | enable
  | byteGroup (g : GroupOver T)
  | disable
  deriving DecidableEq, Repr

/-- An event as the machine takes it. -/
abbrev Event := EventOver Time

/-- The four classified states (rule R11, the set `Classified`). -/
inductive Classified where
  | readingStatus
  | readingData
  | writingData
  | rawCapture
  deriving DecidableEq, Repr

/-- `Data`: four distinct constructors (rule R22). `status b` is not `bytes [b]`. -/
inductive Data where
  | bytes (b : List Byte)
  | ack
  | nack
  | status (b : Byte)
  deriving DecidableEq, Repr

/-- `Cmd`: a command name, or the sentinel, which equals no name (rules R22, R135). -/
inductive Cmd where
  | name (n : String)
  | unknown
  deriving DecidableEq, Repr

/-- `Fields`, the parser's result (rules R21, R100). -/
structure Fields where
  data : Data
  cmd : Option Cmd
  deriving DecidableEq, Repr

/-- `DecodedFrame`, the output record (rule R21). -/
structure DecodedFrameOver (T : Type) where
  label : Classified
  startTime : Option T
  endTime : Option T
  fields : Fields
  deriving DecidableEq, Repr

/-- The output record as the machine emits it. -/
abbrev DecodedFrame := DecodedFrameOver Time

/-- The operands of an `opbyte` row: the first byte group of a cycle, its operation byte given by the ignored bits
7:2 (the class bits 1:0 are the row's), the to-chip bytes after it, and the rest of the group (rules R52, R82). -/
structure OpGroup where
  hi : BitVec 6
  rest : List Byte
  fromChip : List Byte
  ts : Time
  te : Time
  deriving DecidableEq, Repr

/-- The operand of a `cmd` row: a frame of one of the two shapes that look a command up (rules R106, R109), less its
opcode byte, which the row itself fixes. `len` is index 3, `lcs` index 4, `rest` everything from index 7 on; the write
shape leaves indices 0 to 2 free (rule R110). -/
inductive Carrier where
  | resp (len lcs : Byte) (rest : List Byte)
  | write (b0 b1 b2 len lcs : Byte) (rest : List Byte)
  deriving DecidableEq, Repr

/-- One constructor per row of spec/opcode_table.json, in its order: 3 events, 4 operation byte classes, 9 parser
shapes, 33 command table rows. A shape's operands are the buffer's bytes that the row does not fix (log entry 7). -/
inductive Instr where
  -- format `event`
  | enable
  | byteGroup (g : Group)
  | disable
  -- format `opbyte`
  | opStatusRead (o : OpGroup)
  | opDataRead (o : OpGroup)
  | opDataWrite (o : OpGroup)
  | opRaw (o : OpGroup)
  -- format `frame`
  | status (b : Byte)
  | ackRead (rest : List Byte)
  | nackRead (rest : List Byte)
  | resp (len lcs pd0 : Byte) (rest : List Byte)
  | respShort (len lcs : Byte)
  | cmdWrite (b0 b1 b2 len lcs pd0 : Byte) (rest : List Byte)
  | ackRaw
  | nackRaw
  | rawFallback (st : Classified) (b : List Byte)
  -- format `cmd`
  | cmdDiagnose (f : Carrier)
  | cmdGetFirmwareVersion (f : Carrier)
  | cmdGetGeneralStatus (f : Carrier)
  | cmdReadRegister (f : Carrier)
  | cmdWriteRegister (f : Carrier)
  | cmdReadGPIO (f : Carrier)
  | cmdWriteGPIO (f : Carrier)
  | cmdSetSerialBaudRate (f : Carrier)
  | cmdSetParameters (f : Carrier)
  | cmdSAMConfiguration (f : Carrier)
  | cmdPowerDown (f : Carrier)
  | cmdRFConfiguration (f : Carrier)
  | cmdInDataExchange (f : Carrier)
  | cmdInCommunicateThru (f : Carrier)
  | cmdInDeselect (f : Carrier)
  | cmdInJumpForPSL (f : Carrier)
  | cmdInListPassiveTarget (f : Carrier)
  | cmdInPSL (f : Carrier)
  | cmdInATR (f : Carrier)
  | cmdInRelease (f : Carrier)
  | cmdInSelect (f : Carrier)
  | cmdInJumpForDEP (f : Carrier)
  | cmdRFRegulationTest (f : Carrier)
  | cmdInAutoPoll (f : Carrier)
  | cmdTgGetData (f : Carrier)
  | cmdTgGetInitiatorCommand (f : Carrier)
  | cmdTgGetTargetStatus (f : Carrier)
  | cmdTgInitAsTarget (f : Carrier)
  | cmdTgSetData (f : Carrier)
  | cmdTgResponseToInitiator (f : Carrier)
  | cmdTgSetGeneralBytes (f : Carrier)
  | cmdTgSetMetaData (f : Carrier)
  | cmdUnknown (pd0 : Byte) (f : Carrier)
  deriving DecidableEq, Repr

/-- The event row of an event (rule R8: the operation that handles it). -/
def Instr.ofEvent : Event → Instr
  | .enable => .enable
  | .byteGroup g => .byteGroup g
  | .disable => .disable

end Sys2Proof
end

