-- ==== Sys2Proof/Config.lean ====
section
/-! DEFINITION. The parameters of rule R5 that are open, as one record of plain data (spec/00_scope.md section 3,
spec/92_eei_decisions.md "Open parameters", spec/93_implementation_defined.md U4 to U6). The default values stand in
Sys2Proof/Machine/Operands.lean. The part a step reads is `Config`; with `P_TIME` it is `Parameters`. -/

namespace Sys2Proof

/-- The parameter `shortD5` of spec/93_implementation_defined.md U4: what a read of exactly `00 00 FF x y D5` gives. -/
inductive ShortD5 where
  | rawFallback
  | fault
  deriving DecidableEq, Repr

/-- `P_LABEL`: the four label strings (rules R5, R21, R60). -/
structure LabelText where
  readingStatus : String
  readingData : String
  writingData : String
  rawCapture : String
  deriving DecidableEq, Repr

/-- The configuration: fixed before the first event, never changed (rules R19, R162). The model holds it as a field of
State that no step writes (log entry 3), so a statement about every state is a statement about every configuration. -/
structure Config where
  /-- `P_CMDTABLE` but for its one fixed entry, key `0x02`, which no configuration can change (rule R132). -/
  commands : List (Byte × String)
  /-- `P_UNKNOWN` (rule R135). -/
  unknownText : String
  /-- `P_LABEL`. -/
  labelText : LabelText
  /-- U4. -/
  shortD5 : ShortD5
  deriving DecidableEq, Repr

/-- All open parameters of rule R5: those a step reads, and `P_TIME` (decision D16, U6): the type `T` of timestamps, any
type whatever, with the timestamp that each name of a trace stands for. No step reads a timestamp, so `T` and `timeOf`
stand beside State, which is plain data, and act where a frame is handed to the host (log entry 6). -/
structure Parameters (T : Type) extends Config where
  timeOf : Time → T

end Sys2Proof
end

