-- ==== Sys2Proof/Machine/Flags.lean ====
section
/-! DEFINITION. The block has no status flags (rule R18): "every decision is taken from `state`, from the event's
bytes, or from `buf`". This file holds those decisions: the tests the parser makes on a buffer
(rules R55, R56, R57, R66) and the shapes' guards (rules R102 to R114). -/

namespace Sys2Proof.Machine

/-- The preamble `00 00 FF` (rule R55). -/
def preamble : List Byte := [0x00, 0x00, 0xFF]

/-- The ACK code `00 FF 00` (rule R56). -/
def ackCode : List Byte := [0x00, 0xFF, 0x00]

/-- The NACK code `FF 00 00` (rule R56). -/
def nackCode : List Byte := [0xFF, 0x00, 0x00]

/-- The response direction code (rule R57). -/
def respDirection : Byte := 0xD5

/-- The command direction code (rule R57). -/
def cmdDirection : Byte := 0xD4

/-- `buf[i]`. Every use stands under a length guard that makes `i` an index of the buffer (rule R33). -/
def byteAt (b : List Byte) (i : Nat) : Byte := b.getD i 0

/-- `buf[0..3) == [00, 00, FF]` (rule R55). -/
def hasPreamble (b : List Byte) : Bool := b.take 3 == preamble

/-- `buf[3..6) == [00, FF, 00]` (rule R56). -/
def hasAckCode (b : List Byte) : Bool := (b.drop 3).take 3 == ackCode

/-- `buf[3..6) == [FF, 00, 00]` (rule R56). -/
def hasNackCode (b : List Byte) : Bool := (b.drop 3).take 3 == nackCode

/-- `buf[5] == D5` (rules R57, R106). -/
def hasRespDirection (b : List Byte) : Bool := byteAt b 5 == respDirection

/-- `buf[5] == D4` (rules R57, R109). -/
def hasCmdDirection (b : List Byte) : Bool := byteAt b 5 == cmdDirection

/-- `buf[3] > 1`, unsigned (rules R66, R109). -/
def lengthAboveOne (b : List Byte) : Bool := decide (1 < zext (byteAt b 3))

/-- Shape 1's guard (rule R102). -/
def shape1 (b : List Byte) : Bool := b.length == 1

/-- Shape 2's guard (rule R103). -/
def shape2 (b : List Byte) : Bool := decide (6 ≤ b.length) && hasPreamble b

/-- Shape 3's guard (rule R109). -/
def shape3 (b : List Byte) : Bool := decide (9 ≤ b.length) && lengthAboveOne b && hasCmdDirection b

/-- Shape 4's guard (rule R111). -/
def shape4 (b : List Byte) : Bool := (b.length == 6) && hasPreamble b

/-- Some `frame` row of the opcode table other than `RAW_FALLBACK` takes the buffer in this state. -/
def rowTakes (st : Classified) (b : List Byte) : Bool :=
  match st with
  | .readingStatus => shape1 b
  | .readingData => shape2 b && (hasAckCode b || hasNackCode b || hasRespDirection b)
  | .writingData => shape3 b
  | .rawCapture => shape4 b && (hasAckCode b || hasNackCode b)

/-- The one buffer form on which the source contradicts itself: a read of exactly `00 00 FF x y D5`
(rule R107, spec/90_conflicts.md C6). -/
def isShortResponse (st : Classified) (b : List Byte) : Bool :=
  (st == .readingData) && (b.length == 6) && hasPreamble b && hasRespDirection b

end Sys2Proof.Machine
end

