-- ==== Sys2Proof/Machine/Operands.lean ====
section
/-! DEFINITION. Operand forms: the operation byte's two bit fields (rule R52), the lane a state selects (rules R87,
R88), the clamped slice and the payload (rules R34, R58), the lookup key and the command table (rules R59, R130 to
R134), and the bytes of the frames that carry a command (rule R54). The default configuration stands here too
(rules R5, R133). -/

namespace Sys2Proof.Machine

/-! ## The operation byte (rule R52) -/

/-- `op[1:0]`, the class. -/
def opClassBits (op : Byte) : BitVec 2 := op.extractLsb' 0 2

/-- `op[7:2]`, which the block never examines. -/
def opIgnoredBits (op : Byte) : BitVec 6 := op.extractLsb' 2 6

/-- The class an operation byte selects (rules R52, R83 to R86): all 256 byte values are legal. -/
def opClass (op : Byte) : Classified :=
  if opClassBits op = 0b10#2 then .readingStatus
  else if opClassBits op = 0b11#2 then .readingData
  else if opClassBits op = 0b01#2 then .writingData
  else .rawCapture

/-- The operation byte with these ignored bits and this class. -/
def opByte (hi : BitVec 6) (cls : BitVec 2) : Byte := hi ++ cls

/-- The byte group an `opbyte` row's operands stand for, with the row's class bits. -/
def opGroup (o : OpGroup) (cls : BitVec 2) : Group :=
  { toChip := opByte o.hi cls :: o.rest, fromChip := o.fromChip, ts := o.ts, te := o.te }

/-! ## Lanes -/

/-- The direction from which a classified state takes its bytes (rules R87, R88). -/
def laneOf : Classified → Dir
  | .readingStatus | .readingData => .fromChip
  | .writingData | .rawCapture => .toChip

/-- What the first byte group of a cycle appends: nothing, but in the raw class its whole to-chip lane
(rules R83 to R86). The lane of the raw class is the spec's decision D4: log entry 11. -/
def firstLane : Classified → Group → List Byte
  | .rawCapture, g => g.toChip
  | .readingStatus, _ | .readingData, _ | .writingData, _ => []

/-! ## Slices -/

/-- `min(max(i, 0), len)`, as an index. -/
def clampIndex (i : Int) (len : Nat) : Nat := (min (max i 0) (len : Int)).toNat

/-- `slice(s, lo, hi)`: clamped at both ends, never failing (spec/00_scope.md section 5.1; rule R34, decision D10: log
entry 16). -/
def slice (s : List Byte) (lo hi : Int) : List Byte :=
  if clampIndex lo s.length < clampIndex hi s.length then
    (s.drop (clampIndex lo s.length)).take (clampIndex hi s.length - clampIndex lo s.length)
  else []

/-- `li = byte[3] - 1`, an unbounded integer: no wrap (rule R58, decision D12: log entry 17). -/
def li (b : List Byte) : Int := zext (byteAt b 3) - 1

/-- The payload `bytes[7 .. 7+li-1)` (rule R58). -/
def payload (b : List Byte) : List Byte := slice b 7 (7 + li b - 1)

/-! ## The command table -/

/-- `CommandTable(k)`: the fixed entry of rule R132, else the configured one (rules R131, R133). -/
def commandName (c : Config) (k : Byte) : Option String :=
  if k = 0x02 then some "GetFirmwareVersion" else c.commands.lookup k

/-- `lookup(k)` (rule R130): a key outside `0x00` to `0xFF`, or absent, gives `unknown`, never an error. -/
def lookup (c : Config) (k : Int) : Cmd :=
  if 0 ≤ k ∧ k ≤ 255 then
    match commandName c (BitVec.ofInt 8 k) with
    | some n => .name n
    | none => .unknown
  else .unknown

/-- The keys of the `cmd` rows of spec/opcode_table.json, in table order (rules R132, R133). -/
def listedKeys : List Byte :=
  [0x00, 0x02, 0x04, 0x06, 0x08, 0x0C, 0x0E, 0x10] ++
  [0x12, 0x14, 0x16, 0x32, 0x40, 0x42, 0x44, 0x46] ++
  [0x4A, 0x4E, 0x50, 0x52, 0x54, 0x56, 0x58, 0x60] ++
  [0x86, 0x88, 0x8A, 0x8C, 0x8E, 0x90, 0x92, 0x94]

/-- The key has a `cmd` row of its own, so the row `CMD_UNKNOWN` does not stand for it (rule R67). -/
def isListed (k : Int) : Bool := listedKeys.any (fun r => zext r == k)

/-! ## Frames that carry a command (rule R54) -/

/-- The key under which a carrier's opcode byte is looked up: the byte itself on a write, the byte less one, without
wrap, on a read (rules R59, R134). -/
def carrierKey : Carrier → Byte → Int
  | .resp _ _ _, pd0 => zext pd0 - 1
  | .write _ _ _ _ _ _, pd0 => zext pd0

/-- The opcode byte by which a carrier is looked up under a given table key (the inverse of `carrierKey`). -/
def carrierOpcode : Carrier → Byte → Byte
  | .resp _ _ _, key => key + 1
  | .write _ _ _ _ _ _, key => key

/-- The state whose buffer holds the carrier: shape 2c is a data read, shape 3 a data write. -/
def carrierLabel : Carrier → Classified
  | .resp _ _ _ => .readingData
  | .write _ _ _ _ _ _ => .writingData

/-- The whole buffer of a carrier with its opcode byte (rule R54). -/
def carrierBytes : Carrier → Byte → List Byte
  | .resp len lcs rest, pd0 => preamble ++ [len, lcs, respDirection, pd0] ++ rest
  | .write b0 b1 b2 len lcs rest, pd0 => [b0, b1, b2, len, lcs, cmdDirection, pd0] ++ rest

/-! ## The default configuration -/

/-- Rule R133 less key `0x02`, first part. PRESUMED, unsafe: log entry 4. -/
def defaultCommandsLow : List (Byte × String) :=
  [(0x00, "Diagnose"), (0x04, "GetGeneralStatus"), (0x06, "ReadRegister"), (0x08, "WriteRegister"),
   (0x0C, "ReadGPIO"), (0x0E, "WriteGPIO"), (0x10, "SetSerialBaudRate"), (0x12, "SetParameters"),
   (0x14, "SAMConfiguration"), (0x16, "PowerDown"), (0x32, "RFConfiguration")]

/-- Rule R133, second part. -/
def defaultCommandsIn : List (Byte × String) :=
  [(0x40, "InDataExchange"), (0x42, "InCommunicateThru"), (0x44, "InDeselect"), (0x46, "InJumpForPSL"),
   (0x4A, "InListPassiveTarget"), (0x4E, "InPSL"), (0x50, "InATR"), (0x52, "InRelease"), (0x54, "InSelect"),
   (0x56, "InJumpForDEP"), (0x58, "RFRegulationTest"), (0x60, "InAutoPoll")]

/-- Rule R133, third part. -/
def defaultCommandsTg : List (Byte × String) :=
  [(0x86, "TgGetData"), (0x88, "TgGetInitiatorCommand"), (0x8A, "TgGetTargetStatus"), (0x8C, "TgInitAsTarget"),
   (0x8E, "TgSetData"), (0x90, "TgResponseToInitiator"), (0x92, "TgSetGeneralBytes"), (0x94, "TgSetMetaData")]

/-- The default of `P_CMDTABLE` but for the fixed entry (rule R133). -/
def defaultCommands : List (Byte × String) := defaultCommandsLow ++ defaultCommandsIn ++ defaultCommandsTg

/-- The default of `P_LABEL`: the state names as the spec spells them (rule R5, decision D15). -/
def defaultLabelText : LabelText :=
  { readingStatus := "ReadingStatus", readingData := "ReadingData",
    writingData := "WritingData", rawCapture := "RawCapture" }

/-- The default configuration. The spelling of `unknownText` is a DESIGN CHOICE, unsafe: log entry 5. `shortD5` is
the default of U4, which is rule R107: log entry 9. -/
def defaultConfig : Config :=
  { commands := defaultCommands, unknownText := "unknown", labelText := defaultLabelText, shortD5 := .rawFallback }

/-- The configured table is in its one canonical form: keys strictly rising, none of them the fixed key `0x02`. -/
abbrev tableWf (c : Config) : Prop :=
  c.commands.Pairwise (fun a b => a.1.toNat < b.1.toNat) ∧ ∀ e ∈ c.commands, e.1 ≠ 0x02

end Sys2Proof.Machine
end

