-- ==== Sys2Proof/Machine/State.lean ====
section
/-! DEFINITION. The state as plain data (spec/10_state.md), its value after reset (rule R24), and the ways a step can
stop. Beside the block's four registers it holds what a step function of one argument needs: the host's undelivered
events, what the host has received, and the configuration (log entries 1, 2, 3). -/

namespace Sys2Proof.Machine

/-- The control state: exactly six values (rule R11), four of them classified. -/
inductive DecoderState where
  | idle
  | awaitingOperationByte
  | classified (c : Classified)
  deriving DecidableEq, Repr

/-- Everything one step reads and writes. -/
structure State where
  /-- The register `state` (rule R11). -/
  state : DecoderState
  /-- The byte buffer (rule R13): an unbounded list, index 0 first (rules R31, R42). -/
  buf : List Byte
  /-- The register `t_start`; `none` is the spec's "no value" (rules R14, R24). -/
  tStart : Option Time
  /-- The register `t_end` (rules R15, R24). -/
  tEnd : Option Time
  /-- The host's: the events not yet delivered, the next one first (rules R39, R50). The model's own field. -/
  events : List Event
  /-- The output of the most recent event (rule R60). The model's own field; the block never reads it. -/
  output : Option DecodedFrame
  /-- The host's: every frame received, the oldest first (rules R21, R65). The model's own field, never read. -/
  frames : List DecodedFrame
  /-- The configuration (rules R5, R19, R25). The model's own field, never written. -/
  config : Config
  deriving DecidableEq, Repr

/-- The machine right after reset (rules R24, R160): no event delivered, none pending, the default configuration. -/
def State.reset : State :=
  { state := .idle, buf := [], tStart := none, tEnd := none,
    events := [], output := none, frames := [], config := defaultConfig }

/-- How a step can fail. The block raises no exception (rule R140). -/
inductive Fault where
  /-- Raised by `RESP_SHORT`, and by `DISABLE` on the buffer that row takes, only where the configuration's `shortD5`
  is `fault` (spec/93_implementation_defined.md U4): the source's read of an index that does not exist. Safe. -/
  | shortResponse
  deriving DecidableEq, Repr

/-- Why an input gets no meaning. -/
inductive Refusal where
  /-- Used by exec alone, for an instruction that has no meaning yet. No arm uses it now. Safe. -/
  | notModelled (mnemonic : String)
  /-- Raised by `BYTEGROUP` while `state` is idle: outside the contract (rules R89, R149). Safe. -/
  | byteGroupWhileIdle
  /-- Raised by `BYTEGROUP`, and by the step on its decoding, for a first byte group whose to-chip lane is empty:
  outside the contract (rules R90, R149). Safe. -/
  | emptyFirstGroup
  deriving DecidableEq, Repr

end Sys2Proof.Machine
end

