-- ==== Sys2Proof/Machine/Ops.lean ====
section
/-! DEFINITION. The named operations over the registers and the buffer, and the shared operations of the meanings.
The block takes no exception and returns from none (rules R140, R145), so no operation here enters or leaves one: what
takes an exception's place is the raw fallback, an ordinary result of the parser (rule R141). -/

namespace Sys2Proof.Machine

/-! ## Register and buffer writes -/

/-- `state <- st`. -/
def State.goto (st : DecoderState) (s : State) : State := { s with state := st }

/-- `buf <- []`. -/
def State.clearBuf (s : State) : State := { s with buf := [] }

/-- `buf <- buf ++ v`: the only store, `MemWrite(len(buf), n, v)` (rules R31, R35). -/
def State.append (v : List Byte) (s : State) : State := { s with buf := s.buf ++ v }

/-- `t_start <- some(t)`. -/
def State.stampStart (t : Time) (s : State) : State := { s with tStart := some t }

/-- `t_end <- some(t)`. -/
def State.stampEnd (t : Time) (s : State) : State := { s with tEnd := some t }

/-- The event's output is `o`, and the host receives the frame if there is one (rules R60, R95, R164). -/
def State.answer (o : Option DecodedFrame) (s : State) : State :=
  { s with output := o, frames := s.frames ++ o.toList }

/-- The undelivered events become `es`: the delivery of an event by the host, no act of the block. -/
def State.withEvents (es : List Event) (s : State) : State := { s with events := es }

/-! ## Reads of the buffer as a memory (spec/00_scope.md section 5.2; rules R30, R33) -/

/-- The byte at an index; no value at an index outside the buffer, which does not exist. -/
def State.readByte (s : State) (a : Nat) : Option Byte := s.buf[a]?

/-- `MemRead(addr, n)`: legal only where `addr + n <= len(buf)`. -/
def State.memRead (s : State) (addr n : Nat) : Option (List Byte) :=
  if addr + n ≤ s.buf.length then some ((s.buf.drop addr).take n) else none

/-- The address an append stores to. -/
def State.storeAddr (s : State) : Nat := s.buf.length

/-- The buffer as address and byte pairs. -/
def bufCells (b : List Byte) : List Host.Cell := (b.zipIdx).map (fun p => (p.2, p.1))

/-- The one canonical form of a memory: addresses strictly rising. An unlisted address reads as no value. -/
abbrev Memory.wf (m : List Host.Cell) : Prop := m.Pairwise (fun a b => a.1 < b.1)

/-! ## Shared effects of the events -/

/-- The first byte group of a cycle, once its class is known: `t_start` and `state` are written, the raw class appends,
`t_end` is not written (rules R82 to R86). -/
def firstGroup (c : Classified) (g : Group) (s : State) : State :=
  (((s.stampStart g.ts).goto (.classified c)).append (firstLane c g)).answer none

/-- A later byte group: `t_end` is written and the state's lane appended (rules R87, R88). -/
def accumulate (c : Classified) (g : Group) (s : State) : State :=
  ((s.stampEnd g.te).append (g.bytes (laneOf c))).answer none

/-- The bytes a byte group event stores in this state; none where it is refused. -/
def storedLane (s : State) (g : Group) : List Byte :=
  match s.state with
  | .idle => []
  | .awaitingOperationByte =>
    match g.toChip with
    | [] => []
    | op :: _ => firstLane (opClass op) g
  | .classified c => g.bytes (laneOf c)

/-- The frame of a cycle that ends now: times from the two registers (rule R95). -/
def frameOf (label : Classified) (fields : Fields) (s : State) : DecodedFrame :=
  { label := label, startTime := s.tStart, endTime := s.tEnd, fields := fields }

/-- The end of a cycle with output `o`: `state` idle, the buffer cleared, the times kept (rules R91 to R93). -/
def endCycle (o : Option DecodedFrame) (s : State) : State := ((s.goto .idle).clearBuf).answer o

/-- The end of a classified cycle: one frame is emitted (rules R91, R95). -/
def emitFrame (label : Classified) (fields : Fields) (s : State) : State :=
  endCycle (some (frameOf label fields s)) s

/-- The raw fallback, `raw(b)` (rule R101). -/
def rawFields (b : List Byte) : Fields := { data := .bytes b, cmd := none }

/-- The fields of a frame that carries a command: its payload slice and what the lookup answered
(rules R106, R109, R144). -/
def commandFields (f : Carrier) (pd0 : Byte) (cmd : Cmd) : Fields :=
  { data := .bytes (payload (carrierBytes f pd0)), cmd := some cmd }

/-- The configuration makes the six byte response read a fault and the buffer is one (U4; rule R107). -/
def shortFault (s : State) (st : Classified) (b : List Byte) : Bool :=
  (s.config.shortD5 == .fault) && isShortResponse st b

end Sys2Proof.Machine
end

