-- ==== Sys2Proof/Machine/Parser.lean ====
section
/-! DEFINITION. The Frame Parser as the one block of pseudocode that rule R100 gives, with the rules it gathers
(R101 to R114). The row by row reading stands in Decode.lean and Machine/Frames.lean. -/

namespace Sys2Proof.Machine

/-- Shape 2c's result (rule R106). -/
def responseFields (c : Config) (b : List Byte) : Fields :=
  { data := .bytes (payload b), cmd := some (lookup c (zext (byteAt b 6) - 1)) }

/-- Shape 3's result (rule R109). -/
def writeFields (c : Config) (b : List Byte) : Fields :=
  { data := .bytes (payload b), cmd := some (lookup c (zext (byteAt b 6))) }

/-- The marker a buffer's code stands for, else the rest of the shape (rules R104, R105, R112, R113). -/
def markerOr (b : List Byte) (other : Fields) : Fields :=
  if hasAckCode b then { data := .ack, cmd := none }
  else if hasNackCode b then { data := .nack, cmd := none }
  else other

/-- `parse(st, b)` (rule R100): pure and total. -/
def parse (c : Config) (st : Classified) (b : List Byte) : Fields :=
  match st with
  | .readingStatus => if b.length = 1 then { data := .status (byteAt b 0), cmd := none } else rawFields b
  | .readingData =>
    if 6 ≤ b.length ∧ hasPreamble b then
      markerOr b
        (if hasRespDirection b then
          if 7 ≤ b.length then responseFields c b else rawFields b
        else rawFields b)
    else rawFields b
  | .writingData =>
    if 9 ≤ b.length ∧ 1 < zext (byteAt b 3) ∧ hasCmdDirection b then writeFields c b else rawFields b
  | .rawCapture => if b.length = 6 ∧ hasPreamble b then markerOr b (rawFields b) else rawFields b

end Sys2Proof.Machine
end

