-- ==== Sys2Proof/Machine/Accumulator.lean ====
section
/-! DEFINITION. The Frame Accumulator (spec/40_accumulator.md): the meanings of the three events and of the four
operation byte classes. -/

namespace Sys2Proof.Machine

/-- `onEnable` (rules R80, R96): unconditional; the times are kept. -/
def execEnable (s : State) : Host.Outcome State Fault Refusal :=
  .next (((s.goto .awaitingOperationByte).clearBuf).answer none)

/-- `onByteGroup` (rules R81 to R90). -/
def execByteGroup (g : Group) (s : State) : Host.Outcome State Fault Refusal :=
  match s.state with
  | .idle => .refused .byteGroupWhileIdle
  | .awaitingOperationByte =>
    match g.toChip with
    | [] => .refused .emptyFirstGroup
    | op :: _ => .next (firstGroup (opClass op) g s)
  | .classified c => .next (accumulate c g s)

/-- `onDisable` (rules R91 to R93, R95). -/
def execDisable (s : State) : Host.Outcome State Fault Refusal :=
  match s.state with
  | .idle => .next (endCycle none s)
  | .awaitingOperationByte => .next (endCycle none s)
  | .classified c =>
    if shortFault s c s.buf then .fault .shortResponse
    else .next (emitFrame c (parse s.config c s.buf) s)

/-- Class `10` (rules R82, R83). -/
def execOpStatusRead (o : OpGroup) (s : State) : Host.Outcome State Fault Refusal :=
  .next (firstGroup .readingStatus (opGroup o 0b10#2) s)

/-- Class `11` (rules R82, R84). -/
def execOpDataRead (o : OpGroup) (s : State) : Host.Outcome State Fault Refusal :=
  .next (firstGroup .readingData (opGroup o 0b11#2) s)

/-- Class `01` (rules R82, R85). -/
def execOpDataWrite (o : OpGroup) (s : State) : Host.Outcome State Fault Refusal :=
  .next (firstGroup .writingData (opGroup o 0b01#2) s)

/-- Class `00` (rules R82, R86): the whole to-chip lane is appended, the operation byte first. -/
def execOpRaw (o : OpGroup) (s : State) : Host.Outcome State Fault Refusal :=
  .next (firstGroup .rawCapture (opGroup o 0b00#2) s)

end Sys2Proof.Machine
end

