-- ==== Sys2Proof/Machine/Commands.lean ====
section
/-! DEFINITION. The `cmd` rows (spec/42_command_table.md): each is the `Disable` that ends a cycle whose frame has one
of the two shapes that look a command up and whose lookup key is the row's. What the key is called is the
configuration's (rules R131, R133); only `0x02` is fixed (rule R132). -/

namespace Sys2Proof.Machine

/-- A carrier is emitted with what the table has under a key (rules R106, R109, R130). -/
def emitCommand (key : Byte) (f : Carrier) (s : State) : State :=
  emitFrame (carrierLabel f) (commandFields f (carrierOpcode f key) (lookup s.config (zext key))) s

/-- Key `0x00`, Diagnose (rule R133). -/
def execCmdDiagnose (f : Carrier) (s : State) : Host.Outcome State Fault Refusal := .next (emitCommand 0x00 f s)

/-- Key `0x02`, GetFirmwareVersion (rule R132, fixed by the source). -/
def execCmdGetFirmwareVersion (f : Carrier) (s : State) : Host.Outcome State Fault Refusal := .next (emitCommand 0x02 f s)

/-- Key `0x04`, GetGeneralStatus (rule R133). -/
def execCmdGetGeneralStatus (f : Carrier) (s : State) : Host.Outcome State Fault Refusal := .next (emitCommand 0x04 f s)

/-- Key `0x06`, ReadRegister (rule R133). -/
def execCmdReadRegister (f : Carrier) (s : State) : Host.Outcome State Fault Refusal := .next (emitCommand 0x06 f s)

/-- Key `0x08`, WriteRegister (rule R133). -/
def execCmdWriteRegister (f : Carrier) (s : State) : Host.Outcome State Fault Refusal := .next (emitCommand 0x08 f s)

/-- Key `0x0C`, ReadGPIO (rule R133). -/
def execCmdReadGPIO (f : Carrier) (s : State) : Host.Outcome State Fault Refusal := .next (emitCommand 0x0C f s)

/-- Key `0x0E`, WriteGPIO (rule R133). -/
def execCmdWriteGPIO (f : Carrier) (s : State) : Host.Outcome State Fault Refusal := .next (emitCommand 0x0E f s)

/-- Key `0x10`, SetSerialBaudRate (rule R133). -/
def execCmdSetSerialBaudRate (f : Carrier) (s : State) : Host.Outcome State Fault Refusal := .next (emitCommand 0x10 f s)

/-- Key `0x12`, SetParameters (rule R133). -/
def execCmdSetParameters (f : Carrier) (s : State) : Host.Outcome State Fault Refusal := .next (emitCommand 0x12 f s)

/-- Key `0x14`, SAMConfiguration (rule R133). -/
def execCmdSAMConfiguration (f : Carrier) (s : State) : Host.Outcome State Fault Refusal := .next (emitCommand 0x14 f s)

/-- Key `0x16`, PowerDown (rule R133). -/
def execCmdPowerDown (f : Carrier) (s : State) : Host.Outcome State Fault Refusal := .next (emitCommand 0x16 f s)

/-- Key `0x32`, RFConfiguration (rule R133). -/
def execCmdRFConfiguration (f : Carrier) (s : State) : Host.Outcome State Fault Refusal := .next (emitCommand 0x32 f s)

/-- Key `0x40`, InDataExchange (rule R133). -/
def execCmdInDataExchange (f : Carrier) (s : State) : Host.Outcome State Fault Refusal := .next (emitCommand 0x40 f s)

/-- Key `0x42`, InCommunicateThru (rule R133). -/
def execCmdInCommunicateThru (f : Carrier) (s : State) : Host.Outcome State Fault Refusal := .next (emitCommand 0x42 f s)

/-- Key `0x44`, InDeselect (rule R133). -/
def execCmdInDeselect (f : Carrier) (s : State) : Host.Outcome State Fault Refusal := .next (emitCommand 0x44 f s)

/-- Key `0x46`, InJumpForPSL (rule R133). -/
def execCmdInJumpForPSL (f : Carrier) (s : State) : Host.Outcome State Fault Refusal := .next (emitCommand 0x46 f s)

/-- Key `0x4A`, InListPassiveTarget (rule R133). -/
def execCmdInListPassiveTarget (f : Carrier) (s : State) : Host.Outcome State Fault Refusal := .next (emitCommand 0x4A f s)

/-- Key `0x4E`, InPSL (rule R133). -/
def execCmdInPSL (f : Carrier) (s : State) : Host.Outcome State Fault Refusal := .next (emitCommand 0x4E f s)

/-- Key `0x50`, InATR (rule R133). -/
def execCmdInATR (f : Carrier) (s : State) : Host.Outcome State Fault Refusal := .next (emitCommand 0x50 f s)

/-- Key `0x52`, InRelease (rule R133). -/
def execCmdInRelease (f : Carrier) (s : State) : Host.Outcome State Fault Refusal := .next (emitCommand 0x52 f s)

/-- Key `0x54`, InSelect (rule R133). -/
def execCmdInSelect (f : Carrier) (s : State) : Host.Outcome State Fault Refusal := .next (emitCommand 0x54 f s)

/-- Key `0x56`, InJumpForDEP (rule R133). -/
def execCmdInJumpForDEP (f : Carrier) (s : State) : Host.Outcome State Fault Refusal := .next (emitCommand 0x56 f s)

/-- Key `0x58`, RFRegulationTest (rule R133). -/
def execCmdRFRegulationTest (f : Carrier) (s : State) : Host.Outcome State Fault Refusal := .next (emitCommand 0x58 f s)

/-- Key `0x60`, InAutoPoll (rule R133). -/
def execCmdInAutoPoll (f : Carrier) (s : State) : Host.Outcome State Fault Refusal := .next (emitCommand 0x60 f s)

/-- Key `0x86`, TgGetData (rule R133). -/
def execCmdTgGetData (f : Carrier) (s : State) : Host.Outcome State Fault Refusal := .next (emitCommand 0x86 f s)

/-- Key `0x88`, TgGetInitiatorCommand (rule R133). -/
def execCmdTgGetInitiatorCommand (f : Carrier) (s : State) : Host.Outcome State Fault Refusal := .next (emitCommand 0x88 f s)

/-- Key `0x8A`, TgGetTargetStatus (rule R133). -/
def execCmdTgGetTargetStatus (f : Carrier) (s : State) : Host.Outcome State Fault Refusal := .next (emitCommand 0x8A f s)

/-- Key `0x8C`, TgInitAsTarget (rule R133). -/
def execCmdTgInitAsTarget (f : Carrier) (s : State) : Host.Outcome State Fault Refusal := .next (emitCommand 0x8C f s)

/-- Key `0x8E`, TgSetData (rule R133). -/
def execCmdTgSetData (f : Carrier) (s : State) : Host.Outcome State Fault Refusal := .next (emitCommand 0x8E f s)

/-- Key `0x90`, TgResponseToInitiator (rule R133). -/
def execCmdTgResponseToInitiator (f : Carrier) (s : State) : Host.Outcome State Fault Refusal := .next (emitCommand 0x90 f s)

/-- Key `0x92`, TgSetGeneralBytes (rule R133). -/
def execCmdTgSetGeneralBytes (f : Carrier) (s : State) : Host.Outcome State Fault Refusal := .next (emitCommand 0x92 f s)

/-- Key `0x94`, TgSetMetaData (rule R133). -/
def execCmdTgSetMetaData (f : Carrier) (s : State) : Host.Outcome State Fault Refusal := .next (emitCommand 0x94 f s)

/-- Every key that no other row matches, the key -1 among them (rules R67, R130, R134). -/
def execCmdUnknown (pd0 : Byte) (f : Carrier) (s : State) : Host.Outcome State Fault Refusal :=
  .next (emitFrame (carrierLabel f) (commandFields f pd0 .unknown) s)

end Sys2Proof.Machine
end

