-- ==== Sys2Proof/Machine/Frames.lean ====
section
/-! DEFINITION. The `frame` rows (spec/41_parser.md): each is the `Disable` that ends a cycle whose buffer has the
row's shape. The buffer's bytes are the instruction's operands; the label is the state the shape belongs to
(rules R91, R95, R115). -/

namespace Sys2Proof.Machine

/-- Shape 1 (rule R102). -/
def execStatus (b : Byte) (s : State) : Host.Outcome State Fault Refusal :=
  .next (emitFrame .readingStatus { data := .status b, cmd := none } s)

/-- Shape 2a (rule R104): bytes from index 6 on are ignored. -/
def execAckRead (_rest : List Byte) (s : State) : Host.Outcome State Fault Refusal :=
  .next (emitFrame .readingData { data := .ack, cmd := none } s)

/-- Shape 2b (rule R105). -/
def execNackRead (_rest : List Byte) (s : State) : Host.Outcome State Fault Refusal :=
  .next (emitFrame .readingData { data := .nack, cmd := none } s)

/-- Shape 2c (rule R106): the key is the opcode byte less one (rule R134). -/
def execResp (len lcs pd0 : Byte) (rest : List Byte) (s : State) : Host.Outcome State Fault Refusal :=
  .next (emitFrame .readingData
    (commandFields (.resp len lcs rest) pd0 (lookup s.config (carrierKey (.resp len lcs rest) pd0))) s)

/-- Shape 2c on six bytes (rule R107): the raw fallback, or the fault of U4 where the configuration says so. -/
def execRespShort (len lcs : Byte) (s : State) : Host.Outcome State Fault Refusal :=
  match s.config.shortD5 with
  | .rawFallback => .next (emitFrame .readingData (rawFields (preamble ++ [len, lcs, respDirection])) s)
  | .fault => .fault .shortResponse

/-- Shape 3 (rule R109): the key is the opcode byte itself. -/
def execCmdWrite (b0 b1 b2 len lcs pd0 : Byte) (rest : List Byte) (s : State) :
    Host.Outcome State Fault Refusal :=
  .next (emitFrame .writingData
    (commandFields (.write b0 b1 b2 len lcs rest) pd0
      (lookup s.config (carrierKey (.write b0 b1 b2 len lcs rest) pd0))) s)

/-- Shape 4a (rule R112). -/
def execAckRaw (s : State) : Host.Outcome State Fault Refusal :=
  .next (emitFrame .rawCapture { data := .ack, cmd := none } s)

/-- Shape 4b (rule R113). -/
def execNackRaw (s : State) : Host.Outcome State Fault Refusal :=
  .next (emitFrame .rawCapture { data := .nack, cmd := none } s)

/-- The raw fallback (rules R101, R108, R114, R141): the whole buffer, unmodified and in order. -/
def execRawFallback (st : Classified) (b : List Byte) (s : State) : Host.Outcome State Fault Refusal :=
  .next (emitFrame st (rawFields b) s)

end Sys2Proof.Machine
end

