-- ==== Sys2Proof/Machine/Dispatch.lean ====
section
/-! DEFINITION. The dispatch: one arm per constructor of `Instr`, each one call of that instruction's meaning. -/

namespace Sys2Proof.Machine

def exec (i : Instr) (s : State) : Host.Outcome State Fault Refusal :=
  match i with
  | .enable => Sys2Proof.Machine.execEnable s
  | .byteGroup g => Sys2Proof.Machine.execByteGroup g s
  | .disable => Sys2Proof.Machine.execDisable s
  | .opStatusRead o => Sys2Proof.Machine.execOpStatusRead o s
  | .opDataRead o => Sys2Proof.Machine.execOpDataRead o s
  | .opDataWrite o => Sys2Proof.Machine.execOpDataWrite o s
  | .opRaw o => Sys2Proof.Machine.execOpRaw o s
  | .status b => Sys2Proof.Machine.execStatus b s
  | .ackRead rest => Sys2Proof.Machine.execAckRead rest s
  | .nackRead rest => Sys2Proof.Machine.execNackRead rest s
  | .resp len lcs pd0 rest => Sys2Proof.Machine.execResp len lcs pd0 rest s
  | .respShort len lcs => Sys2Proof.Machine.execRespShort len lcs s
  | .cmdWrite b0 b1 b2 len lcs pd0 rest => Sys2Proof.Machine.execCmdWrite b0 b1 b2 len lcs pd0 rest s
  | .ackRaw => Sys2Proof.Machine.execAckRaw s
  | .nackRaw => Sys2Proof.Machine.execNackRaw s
  | .rawFallback st b => Sys2Proof.Machine.execRawFallback st b s
  | .cmdDiagnose f => Sys2Proof.Machine.execCmdDiagnose f s
  | .cmdGetFirmwareVersion f => Sys2Proof.Machine.execCmdGetFirmwareVersion f s
  | .cmdGetGeneralStatus f => Sys2Proof.Machine.execCmdGetGeneralStatus f s
  | .cmdReadRegister f => Sys2Proof.Machine.execCmdReadRegister f s
  | .cmdWriteRegister f => Sys2Proof.Machine.execCmdWriteRegister f s
  | .cmdReadGPIO f => Sys2Proof.Machine.execCmdReadGPIO f s
  | .cmdWriteGPIO f => Sys2Proof.Machine.execCmdWriteGPIO f s
  | .cmdSetSerialBaudRate f => Sys2Proof.Machine.execCmdSetSerialBaudRate f s
  | .cmdSetParameters f => Sys2Proof.Machine.execCmdSetParameters f s
  | .cmdSAMConfiguration f => Sys2Proof.Machine.execCmdSAMConfiguration f s
  | .cmdPowerDown f => Sys2Proof.Machine.execCmdPowerDown f s
  | .cmdRFConfiguration f => Sys2Proof.Machine.execCmdRFConfiguration f s
  | .cmdInDataExchange f => Sys2Proof.Machine.execCmdInDataExchange f s
  | .cmdInCommunicateThru f => Sys2Proof.Machine.execCmdInCommunicateThru f s
  | .cmdInDeselect f => Sys2Proof.Machine.execCmdInDeselect f s
  | .cmdInJumpForPSL f => Sys2Proof.Machine.execCmdInJumpForPSL f s
  | .cmdInListPassiveTarget f => Sys2Proof.Machine.execCmdInListPassiveTarget f s
  | .cmdInPSL f => Sys2Proof.Machine.execCmdInPSL f s
  | .cmdInATR f => Sys2Proof.Machine.execCmdInATR f s
  | .cmdInRelease f => Sys2Proof.Machine.execCmdInRelease f s
  | .cmdInSelect f => Sys2Proof.Machine.execCmdInSelect f s
  | .cmdInJumpForDEP f => Sys2Proof.Machine.execCmdInJumpForDEP f s
  | .cmdRFRegulationTest f => Sys2Proof.Machine.execCmdRFRegulationTest f s
  | .cmdInAutoPoll f => Sys2Proof.Machine.execCmdInAutoPoll f s
  | .cmdTgGetData f => Sys2Proof.Machine.execCmdTgGetData f s
  | .cmdTgGetInitiatorCommand f => Sys2Proof.Machine.execCmdTgGetInitiatorCommand f s
  | .cmdTgGetTargetStatus f => Sys2Proof.Machine.execCmdTgGetTargetStatus f s
  | .cmdTgInitAsTarget f => Sys2Proof.Machine.execCmdTgInitAsTarget f s
  | .cmdTgSetData f => Sys2Proof.Machine.execCmdTgSetData f s
  | .cmdTgResponseToInitiator f => Sys2Proof.Machine.execCmdTgResponseToInitiator f s
  | .cmdTgSetGeneralBytes f => Sys2Proof.Machine.execCmdTgSetGeneralBytes f s
  | .cmdTgSetMetaData f => Sys2Proof.Machine.execCmdTgSetMetaData f s
  | .cmdUnknown pd0 f => Sys2Proof.Machine.execCmdUnknown pd0 f s

end Sys2Proof.Machine
end

