-- ==== Sys2Proof/WellFormed.lean ====
section
/-! DEFINITION. Well-formed instructions: the rows' conditions on operands (rules R67, R101, R109, R130). Every
operation byte, every byte group and every buffer is legal (rule R61), so the checks only keep a row from standing
for what another row of the table takes. -/

namespace Sys2Proof

/-- A carrier obeys its shape's guard: on a write `buf[3] > 1` and `len(buf) >= 9`, that is two bytes from index 7 on
(rule R109); a response has no further condition (rule R106). -/
def Carrier.wf : Carrier → Bool
  | .resp _ _ _ => true
  | .write _ _ _ len _ rest => decide (1 < zext len) && decide (2 ≤ rest.length)

/-- The check. -/
def Instr.wf : Instr → Bool
  | .enable | .byteGroup _ | .disable => true
  | .opStatusRead _ | .opDataRead _ | .opDataWrite _ | .opRaw _ => true
  | .status _ | .ackRead _ | .nackRead _ | .resp _ _ _ _ | .respShort _ _ | .ackRaw | .nackRaw => true
  | .cmdWrite b0 b1 b2 len lcs _ rest => (Carrier.write b0 b1 b2 len lcs rest).wf
  | .rawFallback st b => !Machine.rowTakes st b
  | .cmdDiagnose f | .cmdGetFirmwareVersion f | .cmdGetGeneralStatus f | .cmdReadRegister f => f.wf
  | .cmdWriteRegister f | .cmdReadGPIO f | .cmdWriteGPIO f | .cmdSetSerialBaudRate f => f.wf
  | .cmdSetParameters f | .cmdSAMConfiguration f | .cmdPowerDown f | .cmdRFConfiguration f => f.wf
  | .cmdInDataExchange f | .cmdInCommunicateThru f | .cmdInDeselect f | .cmdInJumpForPSL f => f.wf
  | .cmdInListPassiveTarget f | .cmdInPSL f | .cmdInATR f | .cmdInRelease f => f.wf
  | .cmdInSelect f | .cmdInJumpForDEP f | .cmdRFRegulationTest f | .cmdInAutoPoll f => f.wf
  | .cmdTgGetData f | .cmdTgGetInitiatorCommand f | .cmdTgGetTargetStatus f | .cmdTgInitAsTarget f => f.wf
  | .cmdTgSetData f | .cmdTgResponseToInitiator f | .cmdTgSetGeneralBytes f | .cmdTgSetMetaData f => f.wf
  | .cmdUnknown pd0 f => f.wf && !Machine.isListed (Machine.carrierKey f pd0)

end Sys2Proof
end

