-- ==== Sys2Proof/Decode.lean ====
section
/-! DEFINITION. Decoding, total, and after it the encoder and the rows of spec/opcode_table.json as data.
The block decodes at three levels, each with its own format (spec/30_encoding.md): the input event, a tag without bits
(rule R50); the operation byte (rule R52); the frame in `buf` (rules R54 to R57, spec/41_parser.md); and, inside two
shapes, the lookup key (rules R59, R67). A `Code` is what stands at one of these levels. -/

namespace Sys2Proof

/-- What the decoder reads, by level. There is no encoding of events as bits (rule R50). -/
inductive Code where
  /-- An event, taken whole. -/
  | event (e : Event)
  /-- The first byte group of a cycle, read by its operation byte. -/
  | operation (g : Group)
  /-- The buffer at `Disable` with the state that collected it, read to a parser shape. -/
  | frame (st : Classified) (b : List Byte)
  /-- The same, read on to the row of its lookup key where the shape looks one up. -/
  | command (st : Classified) (b : List Byte)
  deriving DecidableEq, Repr

/-- Why a code has no instruction. No encoding is illegal (rule R61); one input lies outside the contract. -/
inductive Reject where
  /-- The first byte group of a cycle has no to-chip byte (rule R90). -/
  | emptyFirstGroup
  deriving DecidableEq, Repr

namespace Machine

/-- The operation byte's class selects the row; bits 7:2 are kept as an operand and never examined (rule R52). -/
def decodeOperation (g : Group) : Except Reject Instr :=
  match g.toChip with
  | [] => .error .emptyFirstGroup
  | op :: rest =>
    .ok (match opClass op with
      | .readingStatus => .opStatusRead ⟨opIgnoredBits op, rest, g.fromChip, g.ts, g.te⟩
      | .readingData => .opDataRead ⟨opIgnoredBits op, rest, g.fromChip, g.ts, g.te⟩
      | .writingData => .opDataWrite ⟨opIgnoredBits op, rest, g.fromChip, g.ts, g.te⟩
      | .rawCapture => .opRaw ⟨opIgnoredBits op, rest, g.fromChip, g.ts, g.te⟩)

/-- `ReadingStatus`: shape 1 or the fallback (rules R101, R102). -/
def decodeStatus : List Byte → Instr
  | [b] => .status b
  | b => .rawFallback .readingStatus b

/-- `ReadingData` past the preamble: `b3` to `b5` are indices 3 to 5, `rest` is from index 6 on (rules R104 to R108). -/
def decodeDataBody (b3 b4 b5 : Byte) (rest : List Byte) : Instr :=
  if [b3, b4, b5] = ackCode then .ackRead rest
  else if [b3, b4, b5] = nackCode then .nackRead rest
  else if b5 = respDirection then
    match rest with
    | [] => .respShort b3 b4
    | pd0 :: tail => .resp b3 b4 pd0 tail
  else .rawFallback .readingData (preamble ++ [b3, b4, b5] ++ rest)

/-- `ReadingData` (rules R101, R103). -/
def decodeData : List Byte → Instr
  | b0 :: b1 :: b2 :: b3 :: b4 :: b5 :: rest =>
    if [b0, b1, b2] = preamble then decodeDataBody b3 b4 b5 rest
    else .rawFallback .readingData (b0 :: b1 :: b2 :: b3 :: b4 :: b5 :: rest)
  | b => .rawFallback .readingData b

/-- `WritingData`: shape 3 or the fallback; no preamble test (rules R101, R109, R110). -/
def decodeWrite : List Byte → Instr
  | b0 :: b1 :: b2 :: b3 :: b4 :: b5 :: b6 :: b7 :: b8 :: rest =>
    if 1 < zext b3 ∧ b5 = cmdDirection then .cmdWrite b0 b1 b2 b3 b4 b6 (b7 :: b8 :: rest)
    else .rawFallback .writingData (b0 :: b1 :: b2 :: b3 :: b4 :: b5 :: b6 :: b7 :: b8 :: rest)
  | b => .rawFallback .writingData b

/-- `RawCapture`: ACK or NACK at exactly six bytes, or the fallback (rules R101, R111 to R114). -/
def decodeRaw (b : List Byte) : Instr :=
  if b = preamble ++ ackCode then .ackRaw
  else if b = preamble ++ nackCode then .nackRaw
  else .rawFallback .rawCapture b

/-- The parser shape of a buffer in a state: total (rules R100, R115). -/
def decodeFrame (st : Classified) (b : List Byte) : Instr :=
  match st with
  | .readingStatus => decodeStatus b
  | .readingData => decodeData b
  | .writingData => decodeWrite b
  | .rawCapture => decodeRaw b

/-- The `cmd` rows: key and constructor, first part (rules R132, R133). -/
def commandRowsLow : List (Byte × (Carrier → Instr)) :=
  [(0x00, .cmdDiagnose),
   (0x02, .cmdGetFirmwareVersion),
   (0x04, .cmdGetGeneralStatus),
   (0x06, .cmdReadRegister),
   (0x08, .cmdWriteRegister),
   (0x0C, .cmdReadGPIO),
   (0x0E, .cmdWriteGPIO),
   (0x10, .cmdSetSerialBaudRate),
   (0x12, .cmdSetParameters),
   (0x14, .cmdSAMConfiguration),
   (0x16, .cmdPowerDown)]

/-- The `cmd` rows, second part. -/
def commandRowsIn : List (Byte × (Carrier → Instr)) :=
  [(0x32, .cmdRFConfiguration),
   (0x40, .cmdInDataExchange),
   (0x42, .cmdInCommunicateThru),
   (0x44, .cmdInDeselect),
   (0x46, .cmdInJumpForPSL),
   (0x4A, .cmdInListPassiveTarget),
   (0x4E, .cmdInPSL),
   (0x50, .cmdInATR),
   (0x52, .cmdInRelease),
   (0x54, .cmdInSelect),
   (0x56, .cmdInJumpForDEP),
   (0x58, .cmdRFRegulationTest),
   (0x60, .cmdInAutoPoll)]

/-- The `cmd` rows, third part. -/
def commandRowsTg : List (Byte × (Carrier → Instr)) :=
  [(0x86, .cmdTgGetData),
   (0x88, .cmdTgGetInitiatorCommand),
   (0x8A, .cmdTgGetTargetStatus),
   (0x8C, .cmdTgInitAsTarget),
   (0x8E, .cmdTgSetData),
   (0x90, .cmdTgResponseToInitiator),
   (0x92, .cmdTgSetGeneralBytes),
   (0x94, .cmdTgSetMetaData)]

/-- All `cmd` rows with a key, in table order. -/
def commandRows : List (Byte × (Carrier → Instr)) := commandRowsLow ++ commandRowsIn ++ commandRowsTg

/-- The `cmd` row of a frame that carries a command: the row of its key, else `CMD_UNKNOWN` (rule R67). -/
def commandRow (f : Carrier) (pd0 : Byte) : Instr :=
  match commandRows.find? (fun r => zext r.1 == carrierKey f pd0) with
  | some r => r.2 f
  | none => .cmdUnknown pd0 f

/-- A shape that looks a command up is read on to the row of its key; every other instruction stays. -/
def refineCommand : Instr → Instr
  | .resp len lcs pd0 rest => commandRow (.resp len lcs rest) pd0
  | .cmdWrite b0 b1 b2 len lcs pd0 rest => commandRow (.write b0 b1 b2 len lcs rest) pd0
  | i => i

/-- The key a shape looks up, where it looks one up (rules R106, R109). -/
def lookupKey : Instr → Option Int
  | .resp len lcs pd0 rest => some (carrierKey (.resp len lcs rest) pd0)
  | .cmdWrite b0 b1 b2 len lcs pd0 rest => some (carrierKey (.write b0 b1 b2 len lcs rest) pd0)
  | _ => none

/-- The decoder. -/
def decode : Code → Except Reject Instr
  | .event e => .ok (.ofEvent e)
  | .operation g => decodeOperation g
  | .frame st b => .ok (decodeFrame st b)
  | .command st b => .ok (refineCommand (decodeFrame st b))

/-! ## The encoder -/

/-- A `cmd` row's code: its carrier with the opcode byte that is looked up under the row's key (rule R59). -/
def encodeCommand (key : Byte) (f : Carrier) : Code :=
  .command (carrierLabel f) (carrierBytes f (carrierOpcode f key))

/-- The encoder, from the same rules (R50, R52, R54 to R57, R59). -/
def encode : Instr → Code
  | .enable => .event .enable
  | .byteGroup g => .event (.byteGroup g)
  | .disable => .event .disable
  | .opStatusRead o => .operation (opGroup o 0b10#2)
  | .opDataRead o => .operation (opGroup o 0b11#2)
  | .opDataWrite o => .operation (opGroup o 0b01#2)
  | .opRaw o => .operation (opGroup o 0b00#2)
  | .status b => .frame .readingStatus [b]
  | .ackRead rest => .frame .readingData (preamble ++ ackCode ++ rest)
  | .nackRead rest => .frame .readingData (preamble ++ nackCode ++ rest)
  | .resp len lcs pd0 rest => .frame .readingData (carrierBytes (.resp len lcs rest) pd0)
  | .respShort len lcs => .frame .readingData (preamble ++ [len, lcs, respDirection])
  | .cmdWrite b0 b1 b2 len lcs pd0 rest => .frame .writingData (carrierBytes (.write b0 b1 b2 len lcs rest) pd0)
  | .ackRaw => .frame .rawCapture (preamble ++ ackCode)
  | .nackRaw => .frame .rawCapture (preamble ++ nackCode)
  | .rawFallback st b => .frame st b
  | .cmdDiagnose f => encodeCommand 0x00 f
  | .cmdGetFirmwareVersion f => encodeCommand 0x02 f
  | .cmdGetGeneralStatus f => encodeCommand 0x04 f
  | .cmdReadRegister f => encodeCommand 0x06 f
  | .cmdWriteRegister f => encodeCommand 0x08 f
  | .cmdReadGPIO f => encodeCommand 0x0C f
  | .cmdWriteGPIO f => encodeCommand 0x0E f
  | .cmdSetSerialBaudRate f => encodeCommand 0x10 f
  | .cmdSetParameters f => encodeCommand 0x12 f
  | .cmdSAMConfiguration f => encodeCommand 0x14 f
  | .cmdPowerDown f => encodeCommand 0x16 f
  | .cmdRFConfiguration f => encodeCommand 0x32 f
  | .cmdInDataExchange f => encodeCommand 0x40 f
  | .cmdInCommunicateThru f => encodeCommand 0x42 f
  | .cmdInDeselect f => encodeCommand 0x44 f
  | .cmdInJumpForPSL f => encodeCommand 0x46 f
  | .cmdInListPassiveTarget f => encodeCommand 0x4A f
  | .cmdInPSL f => encodeCommand 0x4E f
  | .cmdInATR f => encodeCommand 0x50 f
  | .cmdInRelease f => encodeCommand 0x52 f
  | .cmdInSelect f => encodeCommand 0x54 f
  | .cmdInJumpForDEP f => encodeCommand 0x56 f
  | .cmdRFRegulationTest f => encodeCommand 0x58 f
  | .cmdInAutoPoll f => encodeCommand 0x60 f
  | .cmdTgGetData f => encodeCommand 0x86 f
  | .cmdTgGetInitiatorCommand f => encodeCommand 0x88 f
  | .cmdTgGetTargetStatus f => encodeCommand 0x8A f
  | .cmdTgInitAsTarget f => encodeCommand 0x8C f
  | .cmdTgSetData f => encodeCommand 0x8E f
  | .cmdTgResponseToInitiator f => encodeCommand 0x90 f
  | .cmdTgSetGeneralBytes f => encodeCommand 0x92 f
  | .cmdTgSetMetaData f => encodeCommand 0x94 f
  | .cmdUnknown pd0 f => .command (carrierLabel f) (carrierBytes f pd0)

/-! ## The rows of spec/opcode_table.json as data (rule R67) -/

/-- A length condition, `fields.len`. -/
inductive LenTest where
  | exactly (n : Nat)
  | atLeast (n : Nat)
  deriving DecidableEq, Repr

/-- The condition holds of a length. -/
def lenHolds : LenTest → Nat → Bool
  | .exactly n, k => k == n
  | .atLeast n, k => decide (n ≤ k)

/-- A `frame` row: `lengthCond` is `fields.cond`, the test `buf[3] > 1`. -/
structure FrameRow where
  mnemonic : String
  states : List Classified
  len : LenTest
  priority : Nat
  pattern : List Byte
  mask : List Byte
  lengthCond : Bool
  deriving DecidableEq, Repr

/-- `(buf[i] AND mask[i]) == match[i]` for each listed index (rule R67). -/
def maskedEq : List Byte → List Byte → List Byte → Bool
  | [], _, _ => true
  | m :: ms, k :: ks, b :: bs => ((b &&& k) == m) && maskedEq ms ks bs
  | _ :: _, _, _ => false

/-- The row takes the buffer in the state. -/
def frameRowTakes (r : FrameRow) (st : Classified) (b : List Byte) : Bool :=
  r.states.contains st && lenHolds r.len b.length && maskedEq r.pattern r.mask b &&
    (!r.lengthCond || lengthAboveOne b)

/-- The nine `frame` rows, in table order, which within one state is `priority` order. -/
def frameRows : List FrameRow :=
  [⟨"STATUS", [.readingStatus], .exactly 1, 1, [], [], false⟩,
   ⟨"ACK_READ", [.readingData], .atLeast 6, 1,
     [0x00, 0x00, 0xFF, 0x00, 0xFF, 0x00], [0xFF, 0xFF, 0xFF, 0xFF, 0xFF, 0xFF], false⟩,
   ⟨"NACK_READ", [.readingData], .atLeast 6, 2,
     [0x00, 0x00, 0xFF, 0xFF, 0x00, 0x00], [0xFF, 0xFF, 0xFF, 0xFF, 0xFF, 0xFF], false⟩,
   ⟨"RESP", [.readingData], .atLeast 7, 3,
     [0x00, 0x00, 0xFF, 0x00, 0x00, 0xD5], [0xFF, 0xFF, 0xFF, 0x00, 0x00, 0xFF], false⟩,
   ⟨"RESP_SHORT", [.readingData], .exactly 6, 3,
     [0x00, 0x00, 0xFF, 0x00, 0x00, 0xD5], [0xFF, 0xFF, 0xFF, 0x00, 0x00, 0xFF], false⟩] ++
  [⟨"CMD_WRITE", [.writingData], .atLeast 9, 1,
     [0x00, 0x00, 0x00, 0x00, 0x00, 0xD4], [0x00, 0x00, 0x00, 0x00, 0x00, 0xFF], true⟩,
   ⟨"ACK_RAW", [.rawCapture], .exactly 6, 1,
     [0x00, 0x00, 0xFF, 0x00, 0xFF, 0x00], [0xFF, 0xFF, 0xFF, 0xFF, 0xFF, 0xFF], false⟩,
   ⟨"NACK_RAW", [.rawCapture], .exactly 6, 2,
     [0x00, 0x00, 0xFF, 0xFF, 0x00, 0x00], [0xFF, 0xFF, 0xFF, 0xFF, 0xFF, 0xFF], false⟩,
   ⟨"RAW_FALLBACK", [.readingStatus, .readingData, .writingData, .rawCapture], .atLeast 0, 99, [], [], false⟩]

/-- The first `frame` row that takes a buffer: a decoder written from the table alone (rule R67). -/
def selectFrameRow (st : Classified) (b : List Byte) : Option String :=
  (frameRows.find? (fun r => frameRowTakes r st b)).map FrameRow.mnemonic

/-- The mnemonic of the row an instruction stands for. -/
def mnemonic : Instr → String
  | .enable => "ENABLE"
  | .byteGroup _ => "BYTEGROUP"
  | .disable => "DISABLE"
  | .opStatusRead _ => "OP_STATUS_READ"
  | .opDataRead _ => "OP_DATA_READ"
  | .opDataWrite _ => "OP_DATA_WRITE"
  | .opRaw _ => "OP_RAW"
  | .status _ => "STATUS"
  | .ackRead _ => "ACK_READ"
  | .nackRead _ => "NACK_READ"
  | .resp _ _ _ _ => "RESP"
  | .respShort _ _ => "RESP_SHORT"
  | .cmdWrite _ _ _ _ _ _ _ => "CMD_WRITE"
  | .ackRaw => "ACK_RAW"
  | .nackRaw => "NACK_RAW"
  | .rawFallback _ _ => "RAW_FALLBACK"
  | .cmdDiagnose _ => "CMD_Diagnose"
  | .cmdGetFirmwareVersion _ => "CMD_GetFirmwareVersion"
  | .cmdGetGeneralStatus _ => "CMD_GetGeneralStatus"
  | .cmdReadRegister _ => "CMD_ReadRegister"
  | .cmdWriteRegister _ => "CMD_WriteRegister"
  | .cmdReadGPIO _ => "CMD_ReadGPIO"
  | .cmdWriteGPIO _ => "CMD_WriteGPIO"
  | .cmdSetSerialBaudRate _ => "CMD_SetSerialBaudRate"
  | .cmdSetParameters _ => "CMD_SetParameters"
  | .cmdSAMConfiguration _ => "CMD_SAMConfiguration"
  | .cmdPowerDown _ => "CMD_PowerDown"
  | .cmdRFConfiguration _ => "CMD_RFConfiguration"
  | .cmdInDataExchange _ => "CMD_InDataExchange"
  | .cmdInCommunicateThru _ => "CMD_InCommunicateThru"
  | .cmdInDeselect _ => "CMD_InDeselect"
  | .cmdInJumpForPSL _ => "CMD_InJumpForPSL"
  | .cmdInListPassiveTarget _ => "CMD_InListPassiveTarget"
  | .cmdInPSL _ => "CMD_InPSL"
  | .cmdInATR _ => "CMD_InATR"
  | .cmdInRelease _ => "CMD_InRelease"
  | .cmdInSelect _ => "CMD_InSelect"
  | .cmdInJumpForDEP _ => "CMD_InJumpForDEP"
  | .cmdRFRegulationTest _ => "CMD_RFRegulationTest"
  | .cmdInAutoPoll _ => "CMD_InAutoPoll"
  | .cmdTgGetData _ => "CMD_TgGetData"
  | .cmdTgGetInitiatorCommand _ => "CMD_TgGetInitiatorCommand"
  | .cmdTgGetTargetStatus _ => "CMD_TgGetTargetStatus"
  | .cmdTgInitAsTarget _ => "CMD_TgInitAsTarget"
  | .cmdTgSetData _ => "CMD_TgSetData"
  | .cmdTgResponseToInitiator _ => "CMD_TgResponseToInitiator"
  | .cmdTgSetGeneralBytes _ => "CMD_TgSetGeneralBytes"
  | .cmdTgSetMetaData _ => "CMD_TgSetMetaData"
  | .cmdUnknown _ _ => "CMD_UNKNOWN"

/-- The class bits of an `opbyte` row, as match and mask on the operation byte; `none` for every other row. -/
def opPattern : Instr → Option (Byte × Byte)
  | .opStatusRead _ => some (0x02, 0x03)
  | .opDataRead _ => some (0x03, 0x03)
  | .opDataWrite _ => some (0x01, 0x03)
  | .opRaw _ => some (0x00, 0x03)
  | _ => none

/-- The lookup key of a `cmd` row; `none` for `CMD_UNKNOWN` (mask `0x00`) and for every other row. -/
def rowKey : Instr → Option Byte
  | .cmdDiagnose _ => some 0x00
  | .cmdGetFirmwareVersion _ => some 0x02
  | .cmdGetGeneralStatus _ => some 0x04
  | .cmdReadRegister _ => some 0x06
  | .cmdWriteRegister _ => some 0x08
  | .cmdReadGPIO _ => some 0x0C
  | .cmdWriteGPIO _ => some 0x0E
  | .cmdSetSerialBaudRate _ => some 0x10
  | .cmdSetParameters _ => some 0x12
  | .cmdSAMConfiguration _ => some 0x14
  | .cmdPowerDown _ => some 0x16
  | .cmdRFConfiguration _ => some 0x32
  | .cmdInDataExchange _ => some 0x40
  | .cmdInCommunicateThru _ => some 0x42
  | .cmdInDeselect _ => some 0x44
  | .cmdInJumpForPSL _ => some 0x46
  | .cmdInListPassiveTarget _ => some 0x4A
  | .cmdInPSL _ => some 0x4E
  | .cmdInATR _ => some 0x50
  | .cmdInRelease _ => some 0x52
  | .cmdInSelect _ => some 0x54
  | .cmdInJumpForDEP _ => some 0x56
  | .cmdRFRegulationTest _ => some 0x58
  | .cmdInAutoPoll _ => some 0x60
  | .cmdTgGetData _ => some 0x86
  | .cmdTgGetInitiatorCommand _ => some 0x88
  | .cmdTgGetTargetStatus _ => some 0x8A
  | .cmdTgInitAsTarget _ => some 0x8C
  | .cmdTgSetData _ => some 0x8E
  | .cmdTgResponseToInitiator _ => some 0x90
  | .cmdTgSetGeneralBytes _ => some 0x92
  | .cmdTgSetMetaData _ => some 0x94
  | _ => none

/-! ## Words numbered as spec/opcode_table.json numbers them -/

/-- The `n` bytes of a word, the first at the lowest bits. -/
def wordBytes : Nat → Nat → List Byte
  | 0, _ => []
  | n + 1, w => BitVec.ofNat 8 w :: wordBytes n (w / 256)

/-- The shortest write frame that carries an opcode byte: the carrier a lone lookup key is laid out in (log entry 8). -/
def bareCommand : Carrier := .write 0x00 0x00 0xFF 0x02 0xFE [0x00, 0x00]

/-- A lone timestamp for a byte group that a table word stands for (log entry 8). -/
def tableTime : Time := ⟨0⟩

/-- The code a table word stands for. The table's 8 bit patterns are of two kinds that no bit tells apart: a byte that
is a key of a `cmd` row is read as that key, any other as an operation byte. Two or more bytes are a buffer: a write
cycle's, padded with zeros to nine bytes, where index 5 is the command direction code, else a read cycle's. No bits at
all stand for no instruction, since events have no bits. DESIGN CHOICE: log entry 8. -/
def tableCode (nbits w : Nat) : Option Code :=
  match wordBytes (nbits / 8) w with
  | [] => none
  | [b] =>
    if isListed (zext b) then some (.command .writingData (carrierBytes bareCommand b))
    else some (.operation { toChip := [b], fromChip := [], ts := tableTime, te := tableTime })
  | b =>
    if b[5]? = some cmdDirection then some (.frame .writingData (b ++ List.replicate (9 - b.length) 0))
    else some (.frame .readingData b)

end Machine

/-- The instruction the decoder reads from a table word. -/
def decodeTableWord (nbits w : Nat) : Option Instr :=
  match Machine.tableCode nbits w with
  | none => none
  | some c => (Machine.decode c).toOption

end Sys2Proof
end

