-- ==== Sys2Proof/Machine/Fetch.lean ====
section
/-! DEFINITION. Which code the pending event makes the decoder read. There is no program counter and no instruction
fetch (rules R17, R41): the register `state` sequences, and the host's event, the operation byte and the buffer are
what is decoded (spec/INDEX.md). -/

namespace Sys2Proof.Machine

/-- The shape looks up a key that the configured table has and that no `cmd` row of the opcode table lists: such an
entry has no row of its own, so the frame stays at the level of its shape (log entry 7). -/
def namesUnlisted (c : Config) (i : Instr) : Bool :=
  match lookupKey i with
  | none => false
  | some k => !isListed k && (lookup c k != .unknown)

/-- The code of an event in a state: the most refined row the event selects. -/
def fetchCode (s : State) (e : Event) : Code :=
  match e, s.state with
  | .byteGroup g, .awaitingOperationByte => .operation g
  | .disable, .classified st =>
    if namesUnlisted s.config (decodeFrame st s.buf) then .frame st s.buf else .command st s.buf
  | e, _ => .event e

/-- The state in which the next step reads this code: the events, and where the code is a first byte group or a buffer,
the register that makes it one. -/
def State.withCode (s : State) (c : Code) : State :=
  match c with
  | .event e => { s with events := e :: s.events }
  | .operation g => { s with state := .awaitingOperationByte, events := .byteGroup g :: s.events }
  | .frame st b => { s with state := .classified st, buf := b, events := .disable :: s.events }
  | .command st b => { s with state := .classified st, buf := b, events := .disable :: s.events }

end Sys2Proof.Machine
end

