-- ==== Sys2Proof/Machine/Step.lean ====
section
/-! DEFINITION. One step: one event, handled whole (rules R7, R35, R39). -/

namespace Sys2Proof.Machine

/-- With no event pending the block "does nothing and keeps `S`" (rule R151). Else the event is delivered, decoded to
the row it selects, and that row's meaning runs. -/
def step (s : State) : Host.Outcome State Fault Refusal :=
  match s.events with
  | [] => .next s
  | e :: rest =>
    match decode (fetchCode s e) with
    | .ok i => exec i (s.withEvents rest)
    | .error .emptyFirstGroup => .refused .emptyFirstGroup

/-- The state in which the next step runs a table word: a program is an event trace that the host delivers, so this
stands for the host's delivery of the event, in a state in which the event has that code (log entries 1, 8). -/
def State.withFetchWord (s : State) (nbits w : Nat) : State :=
  match tableCode nbits w with
  | none => s
  | some c => s.withCode c

end Sys2Proof.Machine
end

