-- ==== Sys2Proof/Machine/Output.lean ====
section
/-! DEFINITION. How the host renders an output record (rules R5, R21, R22, R60, R135). The block emits the record itself;
the strings and the timestamps' type are parameters of the rendering. -/

namespace Sys2Proof.Machine

/-- `P_LABEL` (rules R5, R60). -/
def renderLabel (c : Config) : Classified → String
  | .readingStatus => c.labelText.readingStatus
  | .readingData => c.labelText.readingData
  | .writingData => c.labelText.writingData
  | .rawCapture => c.labelText.rawCapture

/-- The literal markers, which are no byte strings (rules R5, R22). -/
def markerText : Data → Option String
  | .ack => some "ACK"
  | .nack => some "NACK"
  | .bytes _ | .status _ => none

/-- `P_UNKNOWN` (rules R5, R135). -/
def renderCmd (c : Config) : Cmd → String
  | .name n => n
  | .unknown => c.unknownText

/-- The downstream form of an output record (rule R21), its times of the host's type (rule R5, `P_TIME`). -/
structure RenderedFrame (T : Type) where
  label : String
  startTime : Option T
  endTime : Option T
  data : Data
  cmd : Option String
  deriving DecidableEq, Repr

/-- The record as the host displays it, under all parameters of rule R5. -/
def renderFrame {T : Type} (p : Parameters T) (f : DecodedFrame) : RenderedFrame T :=
  { label := renderLabel p.toConfig f.label
    startTime := f.startTime.map p.timeOf, endTime := f.endTime.map p.timeOf
    data := f.fields.data, cmd := f.fields.cmd.map (renderCmd p.toConfig) }

end Sys2Proof.Machine
end

