-- ==== Sys2Proof/Safety.lean ====
section
/-! DEFINITION. The terms claims use: the interface contract, the invariant, the soft failure, the renaming of
timestamps, and the records and states a claim compares with. -/

namespace Sys2Proof.Machine

/-! ## The contract -/

/-- The pending event lies inside the contract the host is bound to (rule R149): not a byte group while idle, not a
first byte group without a to-chip byte. Every other event has a defined result. -/
def inContract (s : State) : Bool :=
  match s.events, s.state with
  | .byteGroup _ :: _, .idle => false
  | .byteGroup g :: _, .awaitingOperationByte => !g.toChip.isEmpty
  | _, _ => true

/-- A step is safe where it answers a next state. -/
def stepsOn (s : State) : Prop := ∃ t, step s = .next t

/-! ## Forms of results -/

/-- The combinations of a label, `data` and `cmd` that can occur (rules R60, R114, R116). -/
def legalFields (label : Classified) : Fields → Bool
  | ⟨.status _, none⟩ => label == .readingStatus
  | ⟨.ack, none⟩ | ⟨.nack, none⟩ => (label == .readingData) || (label == .rawCapture)
  | ⟨.bytes _, none⟩ => true
  | ⟨.bytes _, some _⟩ => (label == .readingData) || (label == .writingData)
  | ⟨.status _, some _⟩ | ⟨.ack, some _⟩ | ⟨.nack, some _⟩ => false

/-- A frame the block can have emitted: its start time has a value (rule R21), its fields are a legal combination. -/
def legalFrame (f : DecodedFrame) : Bool := f.startTime.isSome && legalFields f.label f.fields

/-- The soft failure "unrecognized frame shape", by state, as rule R141 tabulates its causes. -/
def softFailure (st : Classified) (b : List Byte) : Bool :=
  match st with
  | .readingStatus => b.length != 1
  | .readingData =>
    decide (b.length < 6) || !hasPreamble b ||
      (!hasAckCode b && !hasNackCode b && !hasRespDirection b) ||
      (hasRespDirection b && !hasAckCode b && !hasNackCode b && (b.length == 6))
  | .writingData => decide (b.length < 9) || decide (zext (byteAt b 3) ≤ 1) || !hasCmdDirection b
  | .rawCapture => (b.length != 6) || !hasPreamble b || (!hasAckCode b && !hasNackCode b)

/-! ## The invariant -/

/-- What holds of every state a run reaches: between cycles, and before the first byte group, the buffer is empty
(rules R13, R80, R91); in a classified state `t_start` has a value (rule R14); a raw buffer begins with its operation
byte, a multiple of 4 (rule R86); the output is the newest frame received; every frame received is legal. -/
structure Inv (s : State) : Prop where
  bufEmpty : (∀ c, s.state ≠ .classified c) → s.buf = []
  startKnown : ∀ c, s.state = .classified c → s.tStart.isSome = true
  rawHead : s.state = .classified .rawCapture → ∃ op rest, s.buf = op :: rest ∧ op.toNat % 4 = 0
  outputNewest : ∀ f, s.output = some f → s.frames.getLast? = some f
  framesLegal : ∀ f ∈ s.frames, legalFrame f = true

/-! ## Renaming timestamps (rule R147: the block copies them and does nothing else) -/

/-- A byte group with its timestamps renamed. -/
def mapTimeGroup {T U : Type} (h : T → U) (g : GroupOver T) : GroupOver U :=
  { toChip := g.toChip, fromChip := g.fromChip, ts := h g.ts, te := h g.te }

/-- An event with its timestamps renamed. -/
def mapTimeEvent {T U : Type} (h : T → U) : EventOver T → EventOver U
  | .enable => .enable
  | .byteGroup g => .byteGroup (mapTimeGroup h g)
  | .disable => .disable

/-- A frame with its timestamps renamed. -/
def mapTimeFrame {T U : Type} (h : T → U) (f : DecodedFrameOver T) : DecodedFrameOver U :=
  { label := f.label, startTime := f.startTime.map h, endTime := f.endTime.map h, fields := f.fields }

/-- A state with every timestamp in it renamed. -/
def mapTime (h : Time → Time) (s : State) : State :=
  { s with
    tStart := s.tStart.map h
    tEnd := s.tEnd.map h
    events := s.events.map (mapTimeEvent h)
    output := s.output.map (mapTimeFrame h)
    frames := s.frames.map (mapTimeFrame h) }

/-- An outcome with every timestamp in its state renamed. -/
def mapTimeOutcome (h : Time → Time) :
    Host.Outcome State Fault Refusal → Host.Outcome State Fault Refusal
  | .next s => .next (mapTime h s)
  | .fault r => .fault r
  | .refused r => .refused r

/-! ## The state over any type of timestamps (rule R5, `P_TIME`) -/

/-- The fields of State with timestamps of type `T` where State holds their names. -/
structure StateOver (T : Type) where
  state : DecoderState
  buf : List Byte
  tStart : Option T
  tEnd : Option T
  events : List (EventOver T)
  output : Option (DecodedFrameOver T)
  frames : List (DecodedFrameOver T)
  config : Config

/-- What a state stands for where the names stand for these timestamps. -/
def State.over {T : Type} (timeOf : Time → T) (s : State) : StateOver T :=
  { state := s.state
    buf := s.buf
    tStart := s.tStart.map timeOf
    tEnd := s.tEnd.map timeOf
    events := s.events.map (mapTimeEvent timeOf)
    output := s.output.map (mapTimeFrame timeOf)
    frames := s.frames.map (mapTimeFrame timeOf)
    config := s.config }

/-- What an outcome stands for. -/
def outcomeOver {T : Type} (timeOf : Time → T) :
    Host.Outcome State Fault Refusal → Host.Outcome (StateOver T) Fault Refusal
  | .next s => .next (s.over timeOf)
  | .fault r => .fault r
  | .refused r => .refused r

/-! ## What a byte group shows the block -/

/-- Two byte groups that the block cannot tell apart in a control state: in a classified state the selected lane and
`te` (rules R87, R88); awaiting, the class of the first to-chip byte, `ts`, and the raw class's lane (rules R82 to
R86, R170). -/
def groupsAgree (st : DecoderState) (g g' : Group) : Prop :=
  match st with
  | .idle => True
  | .classified c => g.te = g'.te ∧ g.bytes (laneOf c) = g'.bytes (laneOf c)
  | .awaitingOperationByte =>
    match g.toChip, g'.toChip with
    | [], [] => True
    | a :: _, b :: _ =>
      opClass a = opClass b ∧ g.ts = g'.ts ∧ firstLane (opClass a) g = firstLane (opClass a) g'
    | _, _ => False

/-! ## Records and states that claims compare with -/

/-- The bytes of a carrier from index 7 on. -/
def carrierRest : Carrier → List Byte
  | .resp _ _ rest => rest
  | .write _ _ _ _ _ rest => rest

/-- The declared length of a carrier, index 3. -/
def carrierLen : Carrier → Byte
  | .resp len _ _ => len
  | .write _ _ _ len _ _ => len

/-- The record of a cycle that ends in `s`: label, the two time registers, fields (rule R95). -/
def recordOf (s : State) (label : Classified) (data : Data) (cmd : Option Cmd) : DecodedFrame :=
  { label := label, startTime := s.tStart, endTime := s.tEnd, fields := { data := data, cmd := cmd } }

/-- The record of a frame that carries a command: the payload is the first `L - 2` bytes from index 7 on, as far as the
buffer goes (rule R58). -/
def commandRecord (s : State) (f : Carrier) (cmd : Cmd) : DecodedFrame :=
  recordOf s (carrierLabel f) (.bytes ((carrierRest f).take ((carrierLen f).toNat - 2))) (some cmd)

/-- `s` after a cycle that ended with this frame: nothing else changes (rule R91). -/
def closedWith (s : State) (f : DecodedFrame) : State :=
  { s with state := .idle, buf := [], output := some f, frames := s.frames ++ [f] }

/-! ## One whole cycle -/

/-- The events of one bus-enable cycle: enable, a first group, later groups, disable (rule R50). -/
def cycleEvents (first : Group) (later : List Group) : List Event :=
  .enable :: .byteGroup first :: (later.map .byteGroup ++ [.disable])

/-- The buffer such a cycle hands the parser (rules R86 to R88). -/
def cycleBuffer (c : Classified) (first : Group) (later : List Group) : List Byte :=
  firstLane c first ++ later.flatMap (fun g => g.bytes (laneOf c))

/-- The buffer is the six byte response read `00 00 FF x y D5` (rule R107, U4). -/
def isSixByteResponse (c : Classified) (b : List Byte) : Prop :=
  c = .readingData ∧ ∃ len lcs : Byte, b = [0x00, 0x00, 0xFF, len, lcs, 0xD5]

/-- `t_end` at the end of such a cycle: the last later group's `te`, else what it held before (rule R15). -/
def cycleEnd (before : Option Time) (later : List Group) : Option Time :=
  match later.getLast? with
  | some g => some g.te
  | none => before

end Sys2Proof.Machine
end

