-- ==== Sys2Proof/Certificates/Slice0/Obligations.lean ====
section
/-! DEFINITION. The statements, each a Prop under its own name; spec/ rules in the docstrings. Where a statement rests on
a decision of the spec, or on a choice of the model, its docstring names the log entry. -/

open Sys2Proof Sys2Proof.Machine

/-! ## Events (spec/40_accumulator.md) -/

/-- Rule R80: `Enable` sets `state` and `buf` from every state and outputs nothing; all else is kept. That the times are
kept is the spec's decision D7 (log entry 13). -/
def Obligations.EnableOpensCycle : Prop :=
  ∀ s : State, exec .enable s = .next { s with state := .awaitingOperationByte, buf := [], output := none }

/-- Rules R161 and R96: after `Enable` nothing is left of the `state` and `buf` before it. -/
def Obligations.EnableForgetsStateAndBuffer : Prop :=
  ∀ (s : State) (st : DecoderState) (b : List Byte),
    exec .enable { s with state := st, buf := b } = exec .enable s ∧
    ∃ t, exec .enable s = .next t ∧ t.tStart = s.tStart ∧ t.tEnd = s.tEnd ∧ t.frames = s.frames

/-- Rules R52 and R82 to R85: in a typed class the first byte group sets `state` and `t_start` and nothing else; no byte
of the group is appended, whatever its length. That the operation byte is the first TO-CHIP byte is the spec's decision
D3 (log entry 11). -/
def Obligations.FirstGroupOfTypedCycleOnlyClassifies : Prop :=
  ∀ (s : State) (g : Group) (op : Byte) (rest : List Byte),
    s.state = .awaitingOperationByte → g.toChip = op :: rest →
    (op.toNat % 4 = 2 → exec (.byteGroup g) s =
      .next { s with state := .classified .readingStatus, tStart := some g.ts, output := none }) ∧
    (op.toNat % 4 = 3 → exec (.byteGroup g) s =
      .next { s with state := .classified .readingData, tStart := some g.ts, output := none }) ∧
    (op.toNat % 4 = 1 → exec (.byteGroup g) s =
      .next { s with state := .classified .writingData, tStart := some g.ts, output := none })

/-- Rule R86: in the raw class the whole to-chip lane of the first group is appended. The lane is the spec's decision
D4 (log entry 11). -/
def Obligations.FirstGroupOfRawCycleAppendsItsLane : Prop :=
  ∀ (s : State) (g : Group) (op : Byte) (rest : List Byte),
    s.state = .awaitingOperationByte → g.toChip = op :: rest → op.toNat % 4 = 0 →
    exec (.byteGroup g) s =
      .next { s with state := .classified .rawCapture, tStart := some g.ts, output := none, buf := s.buf ++ g.toChip }

/-- Rules R82 to R86 for the four operation byte rows as instructions: what each writes, and that all else is kept.
That a row runs on its operands whatever `state` holds is the model's choice (log entry 7). -/
def Obligations.OperationRowsClassify : Prop :=
  ∀ (s : State) (o : OpGroup),
    exec (.opStatusRead o) s =
      .next { s with state := .classified .readingStatus, tStart := some o.ts, output := none } ∧
    exec (.opDataRead o) s =
      .next { s with state := .classified .readingData, tStart := some o.ts, output := none } ∧
    exec (.opDataWrite o) s =
      .next { s with state := .classified .writingData, tStart := some o.ts, output := none } ∧
    exec (.opRaw o) s =
      .next { s with
        state := .classified .rawCapture, tStart := some o.ts, output := none,
        buf := s.buf ++ BitVec.ofNat 8 (o.hi.toNat * 4) :: o.rest }

/-- Rule R87. -/
def Obligations.ReadingAppendsFromChipLane : Prop :=
  ∀ (s : State) (g : Group),
    s.state = .classified .readingStatus ∨ s.state = .classified .readingData →
    exec (.byteGroup g) s = .next { s with tEnd := some g.te, buf := s.buf ++ g.fromChip, output := none }

/-- Rule R88. -/
def Obligations.WritingAppendsToChipLane : Prop :=
  ∀ (s : State) (g : Group),
    s.state = .classified .writingData ∨ s.state = .classified .rawCapture →
    exec (.byteGroup g) s = .next { s with tEnd := some g.te, buf := s.buf ++ g.toChip, output := none }

/-- Rules R89, R90, R149: the two inputs outside the contract are refused, as instructions and as steps. The refusals
are the spec's decisions D5, D6 (log entry 12). -/
def Obligations.OutOfContractGroupsAreRefused : Prop :=
  ∀ (s : State) (g : Group) (rest : List Event),
    (s.state = .idle → exec (.byteGroup g) s = .refused .byteGroupWhileIdle ∧
      (s.events = .byteGroup g :: rest → step s = .refused .byteGroupWhileIdle)) ∧
    (s.state = .awaitingOperationByte → g.toChip = [] → exec (.byteGroup g) s = .refused .emptyFirstGroup ∧
      (s.events = .byteGroup g :: rest → step s = .refused .emptyFirstGroup))

/-- Rules R92 and R93 (R93 is the spec's own inference): `Disable` outside a classified state emits nothing and ends
in `Idle`. That `buf` is cleared is decision D9 (log entry 15). -/
def Obligations.DisableOutsideClassifiedEmitsNothing : Prop :=
  ∀ s : State, s.state = .awaitingOperationByte ∨ s.state = .idle →
    exec .disable s = .next { s with state := .idle, buf := [], output := none }

/-- Rules R91 and R95: `Disable` in a classified state emits one frame, the parser's result under the state's label
with the two registered times, and keeps those. The premise on `shortD5`, which R91 has not, is the default of U4 (log
entry 9); the other value is in ShortResponseFaultsWhereConfigured. That the buffer is cleared is the spec's decision D9
(log entry 15), that the times are kept D7 (log entry 13). -/
def Obligations.DisableEmitsTheParsedFrame : Prop :=
  ∀ (s : State) (c : Classified), s.state = .classified c → s.config.shortD5 = .rawFallback →
    exec .disable s = .next (closedWith s
      { label := c, startTime := s.tStart, endTime := s.tEnd, fields := parse s.config c s.buf })

/-- spec/93_implementation_defined.md U4: where the configuration takes the source's missing index as a failure, the
six byte response read faults, as its row and as a `Disable`; no other buffer does. The model's parameter: log entry 9. -/
def Obligations.ShortResponseFaultsWhereConfigured : Prop :=
  ∀ (s : State), s.config.shortD5 = .fault →
    (∀ len lcs : Byte, exec (.respShort len lcs) s = .fault .shortResponse) ∧
    (∀ len lcs : Byte, s.state = .classified .readingData → s.buf = [0x00, 0x00, 0xFF, len, lcs, 0xD5] →
      exec .disable s = .fault .shortResponse) ∧
    (∀ r, exec .disable s = .fault r →
      s.state = .classified .readingData ∧ ∃ len lcs : Byte, s.buf = [0x00, 0x00, 0xFF, len, lcs, 0xD5])

/-! ## The parser (spec/41_parser.md) -/

/-- Rule R102: a status read is exactly one byte, of any value, in `ReadingStatus`; a one-byte buffer in another state
is not a status read. -/
def Obligations.StatusShapeIsExactlyOneByte : Prop :=
  ∀ (c : Config) (v : Byte),
    parse c .readingStatus [v] = { data := .status v, cmd := none } ∧
    (∀ b : List Byte, b.length ≠ 1 → parse c .readingStatus b = { data := .bytes b, cmd := none }) ∧
    (∀ st : Classified, st ≠ .readingStatus → parse c st [v] = { data := .bytes [v], cmd := none })

/-- Rules R104 and R105: on a read, six bytes decide; what follows them is ignored. -/
def Obligations.MarkersOnReadIgnoreTrailingBytes : Prop :=
  ∀ (c : Config) (rest : List Byte),
    parse c .readingData (0x00 :: 0x00 :: 0xFF :: 0x00 :: 0xFF :: 0x00 :: rest) = { data := .ack, cmd := none } ∧
    parse c .readingData (0x00 :: 0x00 :: 0xFF :: 0xFF :: 0x00 :: 0x00 :: rest) = { data := .nack, cmd := none }

/-- Rule R116: where ACK and NACK are recognised, and nowhere else. -/
def Obligations.MarkersExactlyWhereRecognised : Prop :=
  ∀ (c : Config) (st : Classified) (b : List Byte),
    ((parse c st b).data = .ack ↔
      (st = .readingData ∧ b.take 6 = [0x00, 0x00, 0xFF, 0x00, 0xFF, 0x00]) ∨
      (st = .rawCapture ∧ b = [0x00, 0x00, 0xFF, 0x00, 0xFF, 0x00])) ∧
    ((parse c st b).data = .nack ↔
      (st = .readingData ∧ b.take 6 = [0x00, 0x00, 0xFF, 0xFF, 0x00, 0x00]) ∨
      (st = .rawCapture ∧ b = [0x00, 0x00, 0xFF, 0xFF, 0x00, 0x00]))

/-- Rule R106 with rules R58 and R59: a response of at least seven bytes gives its payload, `L - 2` bytes from index 7
as far as the buffer goes, and the lookup of its opcode less one. The clamp and the unbounded subtraction are the
spec's decisions D10, D12 (log entries 16, 17). -/
def Obligations.ResponseShapeGivesPayloadAndCommand : Prop :=
  ∀ (c : Config) (len lcs pd0 : Byte) (rest : List Byte),
    parse c .readingData (0x00 :: 0x00 :: 0xFF :: len :: lcs :: 0xD5 :: pd0 :: rest) =
      { data := .bytes (rest.take (len.toNat - 2)), cmd := some (lookup c ((pd0.toNat : Int) - 1)) }

/-- Rule R108: past the preamble, a direction code other than `D5` with neither marker gives the raw buffer. -/
def Obligations.ReadWithOtherDirectionIsRaw : Prop :=
  ∀ (c : Config) (b3 b4 b5 : Byte) (rest : List Byte),
    b5 ≠ 0xD5 → [b3, b4, b5] ≠ [0x00, 0xFF, 0x00] → [b3, b4, b5] ≠ [0xFF, 0x00, 0x00] →
    parse c .readingData (0x00 :: 0x00 :: 0xFF :: b3 :: b4 :: b5 :: rest) =
      { data := .bytes (0x00 :: 0x00 :: 0xFF :: b3 :: b4 :: b5 :: rest), cmd := none }

/-- Rule R107: a response read of exactly six bytes parses to the raw buffer. The spec's decision D11 (log entry 9). -/
def Obligations.SixByteResponseReadIsRaw : Prop :=
  ∀ (c : Config) (x y : Byte),
    parse c .readingData [0x00, 0x00, 0xFF, x, y, 0xD5] =
      { data := .bytes [0x00, 0x00, 0xFF, x, y, 0xD5], cmd := none }

/-- Rules R109 and R110: a written frame of nine bytes or more with `L > 1` and direction code `D4` gives payload and
command, whatever its first three bytes and its fifth; every other written buffer is raw. -/
def Obligations.WriteShapeGivesPayloadAndCommand : Prop :=
  ∀ (c : Config),
    (∀ (b0 b1 b2 len b4 pd0 b7 b8 : Byte) (rest : List Byte), 1 < len.toNat →
      parse c .writingData (b0 :: b1 :: b2 :: len :: b4 :: 0xD4 :: pd0 :: b7 :: b8 :: rest) =
        { data := .bytes ((b7 :: b8 :: rest).take (len.toNat - 2)), cmd := some (lookup c (pd0.toNat : Int)) }) ∧
    (∀ b : List Byte, b.length < 9 ∨ (b.getD 3 0).toNat ≤ 1 ∨ b.getD 5 0 ≠ 0xD4 →
      parse c .writingData b = { data := .bytes b, cmd := none })

/-- Rules R112, R113, R114: in raw capture two buffers are markers and every other one is raw, with no command. -/
def Obligations.RawCaptureRecognisesTwoBuffers : Prop :=
  ∀ (c : Config) (b : List Byte),
    parse c .rawCapture b =
      if b = [0x00, 0x00, 0xFF, 0x00, 0xFF, 0x00] then { data := .ack, cmd := none }
      else if b = [0x00, 0x00, 0xFF, 0xFF, 0x00, 0x00] then { data := .nack, cmd := none }
      else { data := .bytes b, cmd := none }

/-- Rule R141: the soft failure's causes, exhaustively, by state; the raw form without a command appears for no other
reason. `softFailure` is the rule's table (Sys2Proof/Safety.lean); its six byte response is decision D11 (log entry 9). -/
def Obligations.SoftFailureHasExactlyItsCauses : Prop :=
  ∀ (c : Config) (st : Classified) (b : List Byte),
    parse c st b = { data := .bytes b, cmd := none } ↔ softFailure st b = true

/-- Rules R60 and R101: the parser's result is one of the legal combinations, and bytes without a command are the whole
buffer. -/
def Obligations.ParserResultsAreLegal : Prop :=
  ∀ (c : Config) (st : Classified) (b : List Byte),
    legalFields st (parse c st b) = true ∧
    (∀ p, parse c st b = { data := .bytes p, cmd := none } → p = b)

/-- Rule R58: the payload's bytes and their number. Decisions D10, D12: log entries 16, 17. -/
def Obligations.PayloadIsClampedDeclaredLength : Prop :=
  ∀ b : List Byte,
    payload b = (b.drop 7).take ((b.getD 3 0).toNat - 2) ∧
    (payload b).length = min ((b.getD 3 0).toNat + 5) b.length - 7

/-- Rule R34: the slice is the bytes between its clamped bounds, for all integers; decision D10: log entry 16. -/
def Obligations.SliceIsClamped : Prop :=
  ∀ (b : List Byte) (lo hi : Int) (i : Nat),
    (slice b lo hi)[i]? =
      if (i : Int) + max lo 0 < hi then b[((i : Int) + max lo 0).toNat]? else none

/-! ## The command table (spec/42_command_table.md) -/

/-- Rule R130: the lookup answers a name exactly where the key is in the domain and the table has it, else the
sentinel. -/
def Obligations.LookupIsTotal : Prop :=
  ∀ (c : Config) (k : Int),
    (∀ n, lookup c k = .name n ↔ 0 ≤ k ∧ k ≤ 255 ∧ commandName c (BitVec.ofInt 8 k) = some n) ∧
    (lookup c k = .unknown ↔ ¬(0 ≤ k ∧ k ≤ 255) ∨ commandName c (BitVec.ofInt 8 k) = none)

/-- Rule R132: in every configuration. -/
def Obligations.FirmwareVersionEntryIsFixed : Prop :=
  ∀ c : Config, commandName c 0x02 = some "GetFirmwareVersion" ∧ lookup c 0x02 = .name "GetFirmwareVersion"

/-- Rule R134: the response's key is its opcode less one without wrap, so opcode `00` finds nothing in any table, and
any other opcode finds what the byte before it finds. Decision D12: log entry 17. -/
def Obligations.ResponseKeyDoesNotWrap : Prop :=
  ∀ (c : Config) (f : Carrier) (len lcs pd0 : Byte) (rest : List Byte), f = .resp len lcs rest →
    (pd0 = 0x00 → lookup c (carrierKey f pd0) = .unknown) ∧
    (pd0 ≠ 0x00 → lookup c (carrierKey f pd0) = lookup c (((pd0 - 1).toNat : Nat) : Int))

/-- Rule R133: what the DEFAULT table holds. It is general knowledge, not the source: log entry 4. -/
def Obligations.DefaultTableHasEvenKeysOnly : Prop :=
  ∀ k : Byte,
    (listedKeys.contains k = true ↔ ∃ n, lookup defaultConfig (zext k) = .name n) ∧
    (k.toNat % 2 = 1 → lookup defaultConfig (zext k) = .unknown)

/-! ## The opcode table's rows as instructions

`closedWith` is the end of a classified cycle (rule R91): the cleared buffer is the spec's decision D9 (log entry 15), the
kept times D7 (log entry 13). -/

/-- Rules R102, R104, R105, R112, R113 as rows: each ends the cycle with its own frame. -/
def Obligations.MarkerAndStatusRowsEmit : Prop :=
  ∀ (s : State) (v : Byte) (rest : List Byte),
    exec (.status v) s = .next (closedWith s (recordOf s .readingStatus (.status v) none)) ∧
    exec (.ackRead rest) s = .next (closedWith s (recordOf s .readingData .ack none)) ∧
    exec (.nackRead rest) s = .next (closedWith s (recordOf s .readingData .nack none)) ∧
    exec .ackRaw s = .next (closedWith s (recordOf s .rawCapture .ack none)) ∧
    exec .nackRaw s = .next (closedWith s (recordOf s .rawCapture .nack none))

/-- Rules R106 and R109 as rows. That a row runs on its operands in any state, also operands outside R109's guard, is the
model's choice (log entry 7); the clamp and the key without wrap are the spec's decisions D10, D12 (log entries 16,
17). -/
def Obligations.CommandShapeRowsEmit : Prop :=
  ∀ (s : State) (b0 b1 b2 len lcs pd0 : Byte) (rest : List Byte),
    exec (.resp len lcs pd0 rest) s =
      .next (closedWith s (commandRecord s (.resp len lcs rest) (lookup s.config ((pd0.toNat : Int) - 1)))) ∧
    exec (.cmdWrite b0 b1 b2 len lcs pd0 rest) s =
      .next (closedWith s (commandRecord s (.write b0 b1 b2 len lcs rest) (lookup s.config (pd0.toNat : Int))))

/-- Rules R101 and R107 as rows; R107 under U4's default (log entry 9). That a row runs on its operands whatever `state`
and `buf` hold is the model's choice (log entry 7). -/
def Obligations.RawRowsEmitTheWholeBuffer : Prop :=
  ∀ (s : State) (st : Classified) (b : List Byte) (len lcs : Byte),
    exec (.rawFallback st b) s = .next (closedWith s (recordOf s st (.bytes b) none)) ∧
    (s.config.shortD5 = .rawFallback →
      exec (.respShort len lcs) s =
        .next (closedWith s (recordOf s .readingData (.bytes [0x00, 0x00, 0xFF, len, lcs, 0xD5]) none)))

/-- The `cmd` rows `0x00` to `0x32`: each ends the cycle with its carrier's payload and what the configured table has
under the row's key (rules R106, R109, R130). That a `cmd` row is the end of such a cycle: log entry 7. -/
def Obligations.ChipCommandRowsEmit : Prop :=
  ∀ (s : State) (f : Carrier),
    exec (.cmdDiagnose f) s = .next (closedWith s (commandRecord s f (lookup s.config 0x00))) ∧
    exec (.cmdGetFirmwareVersion f) s = .next (closedWith s (commandRecord s f (lookup s.config 0x02))) ∧
    exec (.cmdGetGeneralStatus f) s = .next (closedWith s (commandRecord s f (lookup s.config 0x04))) ∧
    exec (.cmdReadRegister f) s = .next (closedWith s (commandRecord s f (lookup s.config 0x06))) ∧
    exec (.cmdWriteRegister f) s = .next (closedWith s (commandRecord s f (lookup s.config 0x08))) ∧
    exec (.cmdReadGPIO f) s = .next (closedWith s (commandRecord s f (lookup s.config 0x0C))) ∧
    exec (.cmdWriteGPIO f) s = .next (closedWith s (commandRecord s f (lookup s.config 0x0E))) ∧
    exec (.cmdSetSerialBaudRate f) s = .next (closedWith s (commandRecord s f (lookup s.config 0x10))) ∧
    exec (.cmdSetParameters f) s = .next (closedWith s (commandRecord s f (lookup s.config 0x12))) ∧
    exec (.cmdSAMConfiguration f) s = .next (closedWith s (commandRecord s f (lookup s.config 0x14))) ∧
    exec (.cmdPowerDown f) s = .next (closedWith s (commandRecord s f (lookup s.config 0x16))) ∧
    exec (.cmdRFConfiguration f) s = .next (closedWith s (commandRecord s f (lookup s.config 0x32)))

/-- The `cmd` rows `0x40` to `0x60`, likewise: log entry 7. -/
def Obligations.InitiatorCommandRowsEmit : Prop :=
  ∀ (s : State) (f : Carrier),
    exec (.cmdInDataExchange f) s = .next (closedWith s (commandRecord s f (lookup s.config 0x40))) ∧
    exec (.cmdInCommunicateThru f) s = .next (closedWith s (commandRecord s f (lookup s.config 0x42))) ∧
    exec (.cmdInDeselect f) s = .next (closedWith s (commandRecord s f (lookup s.config 0x44))) ∧
    exec (.cmdInJumpForPSL f) s = .next (closedWith s (commandRecord s f (lookup s.config 0x46))) ∧
    exec (.cmdInListPassiveTarget f) s = .next (closedWith s (commandRecord s f (lookup s.config 0x4A))) ∧
    exec (.cmdInPSL f) s = .next (closedWith s (commandRecord s f (lookup s.config 0x4E))) ∧
    exec (.cmdInATR f) s = .next (closedWith s (commandRecord s f (lookup s.config 0x50))) ∧
    exec (.cmdInRelease f) s = .next (closedWith s (commandRecord s f (lookup s.config 0x52))) ∧
    exec (.cmdInSelect f) s = .next (closedWith s (commandRecord s f (lookup s.config 0x54))) ∧
    exec (.cmdInJumpForDEP f) s = .next (closedWith s (commandRecord s f (lookup s.config 0x56))) ∧
    exec (.cmdRFRegulationTest f) s = .next (closedWith s (commandRecord s f (lookup s.config 0x58))) ∧
    exec (.cmdInAutoPoll f) s = .next (closedWith s (commandRecord s f (lookup s.config 0x60)))

/-- The `cmd` rows `0x86` to `0x94`, likewise: log entry 7. -/
def Obligations.TargetCommandRowsEmit : Prop :=
  ∀ (s : State) (f : Carrier),
    exec (.cmdTgGetData f) s = .next (closedWith s (commandRecord s f (lookup s.config 0x86))) ∧
    exec (.cmdTgGetInitiatorCommand f) s = .next (closedWith s (commandRecord s f (lookup s.config 0x88))) ∧
    exec (.cmdTgGetTargetStatus f) s = .next (closedWith s (commandRecord s f (lookup s.config 0x8A))) ∧
    exec (.cmdTgInitAsTarget f) s = .next (closedWith s (commandRecord s f (lookup s.config 0x8C))) ∧
    exec (.cmdTgSetData f) s = .next (closedWith s (commandRecord s f (lookup s.config 0x8E))) ∧
    exec (.cmdTgResponseToInitiator f) s = .next (closedWith s (commandRecord s f (lookup s.config 0x90))) ∧
    exec (.cmdTgSetGeneralBytes f) s = .next (closedWith s (commandRecord s f (lookup s.config 0x92))) ∧
    exec (.cmdTgSetMetaData f) s = .next (closedWith s (commandRecord s f (lookup s.config 0x94)))

/-- The row `CMD_UNKNOWN` (rules R67, R130): the sentinel, with the carrier's payload; never the raw fallback
(rule R144). That the row is the end of such a cycle: log entry 7. -/
def Obligations.UnknownCommandRowEmits : Prop :=
  ∀ (s : State) (f : Carrier) (pd0 : Byte),
    exec (.cmdUnknown pd0 f) s = .next (closedWith s (commandRecord s f .unknown))

/-! ## Steps -/

/-- Rule R151: with no event pending nothing changes. The list of pending events is the model's: log entry 1. -/
def Obligations.NoEventNoChange : Prop :=
  ∀ s : State, s.events = [] → step s = .next s

/-- A step takes the next event off the queue and runs the instruction its code decodes to. Both are the model's choice:
the queue is log entry 1, the decoding of an event to a row and running that row is log entry 7. -/
def Obligations.StepRunsTheDecodedRow : Prop :=
  ∀ (s : State) (e : Event) (rest : List Event) (i : Instr),
    s.events = e :: rest → decode (fetchCode s e) = .ok i → step s = exec i { s with events := rest }

/-- Decoding an event to its most refined row and running that row is the event's own meaning: operation byte rows,
shapes and command rows together are `onEnable`, `onByteGroup` and `onDisable` (rules R81, R91, R100). The rows as
instructions are log entry 7, the queue is log entry 1. -/
def Obligations.RowByRowStepIsTheEvent : Prop :=
  ∀ (s : State) (e : Event) (rest : List Event),
    s.events = e :: rest → step s = exec (Instr.ofEvent e) { s with events := rest }

/-- Reading a shape on to the row of its key changes nothing, unless the table names a key that no row lists. That a `cmd`
row (rule R67) is an instruction, and that a shape is read on to it (`refineCommand`, `namesUnlisted`), is the model's
choice: log entry 7. -/
def Obligations.CommandRowIsItsShape : Prop :=
  ∀ (s : State) (i : Instr), namesUnlisted s.config i = false → exec (refineCommand i) s = exec i s

/-- Rules R149, R140: a step is refused exactly outside the contract (the refusals are the spec's decisions D5, D6: log
entry 12). It faults exactly at a `Disable` on the six byte response read where U4's parameter says so (log entry 9).
Everywhere else it answers a next state. -/
def Obligations.StepStopsExactlyOutsideContract : Prop :=
  ∀ s : State,
    (inContract s = false ↔ ∃ r, step s = .refused r) ∧
    (inContract s = true → s.config.shortD5 = .rawFallback → ∃ t, step s = .next t) ∧
    (inContract s = true → s.config.shortD5 = .fault →
      ((∃ c rest, s.state = .classified c ∧ s.events = .disable :: rest ∧ isSixByteResponse c s.buf) →
        step s = .fault .shortResponse) ∧
      ((¬∃ c rest, s.state = .classified c ∧ s.events = .disable :: rest ∧ isSixByteResponse c s.buf) →
        ∃ t, step s = .next t))

/-- Rules R19, R162: no step writes the configuration. That each takes one event off a queue of pending ones is the
model's choice (log entry 1). -/
def Obligations.StepKeepsConfiguration : Prop :=
  ∀ s t : State, step s = .next t → t.config = s.config ∧ t.events = s.events.tail

/-- Rule R12: how `state` moves. That a byte group in `Idle` answers no next state is the spec's decision D6 (log entry
12). -/
def Obligations.ControlStateFollowsItsPath : Prop :=
  ∀ (s t : State) (e : Event) (rest : List Event), s.events = e :: rest → step s = .next t →
    match e, s.state with
    | .enable, _ => t.state = .awaitingOperationByte
    | .disable, _ => t.state = .idle
    | .byteGroup _, .classified c => t.state = .classified c
    | .byteGroup _, .awaitingOperationByte => ∃ c, t.state = .classified c
    | .byteGroup _, .idle => False

/-- Rules R60, R94, R95: a frame leaves only on a `Disable` in a classified state, one, with that state as its label and
the registered times; every other event leaves the frames received as they were. -/
def Obligations.FramesLeaveOnlyAtClassifiedDisable : Prop :=
  ∀ (s t : State) (e : Event) (rest : List Event), s.events = e :: rest → step s = .next t →
    (t.frames = s.frames ∧ t.output = none ∧ ∀ c, ¬(e = .disable ∧ s.state = .classified c)) ∨
    (∃ c f, e = .disable ∧ s.state = .classified c ∧ t.frames = s.frames ++ [f] ∧ t.output = some f ∧
      f.label = c ∧ f.startTime = s.tStart ∧ f.endTime = s.tEnd)

/-- Rules R31, R35, R94: a byte group stores its lane from the buffer's end on, and every byte before it reads as
before; `Enable` and `Disable` leave no byte. `storedLane` and `storeAddr` are what the meaning stores and where. -/
def Obligations.StoresOnlyAtTheBufferEnd : Prop :=
  ∀ (s t : State) (e : Event) (rest : List Event), s.events = e :: rest → step s = .next t →
    match e with
    | .byteGroup g =>
      (∀ a, a < s.storeAddr → t.readByte a = s.readByte a) ∧
      (∀ a, t.readByte (s.storeAddr + a) = (storedLane s g)[a]?)
    | _ => ∀ a, t.readByte a = none

/-- Rules R14, R15: `t_start` is written by a cycle's first byte group only, `t_end` by later ones only. That nothing
clears them is the spec's decision D7 (log entry 13). -/
def Obligations.TimesWrittenOnlyByByteGroups : Prop :=
  ∀ (s t : State) (e : Event) (rest : List Event), s.events = e :: rest → step s = .next t →
    match e, s.state with
    | .byteGroup g, .awaitingOperationByte => t.tStart = some g.ts ∧ t.tEnd = s.tEnd
    | .byteGroup g, .classified _ => t.tStart = s.tStart ∧ t.tEnd = some g.te
    | _, _ => t.tStart = s.tStart ∧ t.tEnd = s.tEnd

/-! ## Whole-machine properties -/

/-- Rule R24 and decision D8 (log entry 14). -/
def Obligations.ResetLeavesNoCycleOpen : Prop :=
  State.reset.state = .idle ∧ State.reset.buf = [] ∧ State.reset.tStart = none ∧ State.reset.tEnd = none

/-- The invariant holds after reset. -/
def Obligations.ResetMeetsInvariant : Prop := Inv State.reset

/-- Every step from a state that meets the invariant gives one that meets it. -/
def Obligations.StepKeepsInvariant : Prop := ∀ s t : State, Inv s → step s = .next t → Inv t

/-- Rule R147: timestamps are copied and nothing else: renaming them all by ANY function, before a step or after it,
comes to the same. -/
def Obligations.TimestampsAreOnlyCopied : Prop :=
  ∀ (h : Time → Time) (s : State), step (mapTime h s) = mapTimeOutcome h (step s)

/-- Rule R5, `P_TIME` (decision D16): the type of timestamps is a parameter. Whatever the type `T`, two states that stand
for the same state over `T`, each under its own naming, step to the same over `T`; and every state over an inhabited `T`
has such a naming. So the machine on names is a machine over every `T`. Names in State are log entry 6. -/
def Obligations.TimestampTypeIsAParameter : Prop :=
  ∀ T : Type,
    (∀ (timeOf timeOf' : Time → T) (s s' : State), s.over timeOf = s'.over timeOf' →
      outcomeOver timeOf (step s) = outcomeOver timeOf' (step s')) ∧
    (Nonempty T → ∀ S : StateOver T, ∃ (timeOf : Time → T) (s : State), s.over timeOf = S)

/-- Rules R82, R87, R88, R170: what a byte group holds beside the part its state reads cannot be learnt. -/
def Obligations.UnreadPartOfGroupIsInvisible : Prop :=
  ∀ (s : State) (g g' : Group) (rest : List Event), groupsAgree s.state g g' →
    step { s with events := .byteGroup g :: rest } = step { s with events := .byteGroup g' :: rest }

/-- A whole bus-enable cycle from ANY state (rules R39, R80 to R88, R91, R95): one frame leaves, its label the class of
the first to-chip byte, its start time the first group's, its end time the last later group's or the one held before
the cycle (rule R172, decision D7: log entry 13), its fields the parse of the bytes of the selected lane in order; no
byte or state of an earlier cycle has a part in it. -/
def Obligations.CycleIsDecodedOnItsOwn : Prop :=
  ∀ (s : State) (first : Group) (later : List Group) (op : Byte) (tail : List Byte) (rest : List Event)
    (c : Classified) (f : DecodedFrame),
    first.toChip = op :: tail → c = opClass op → s.config.shortD5 = .rawFallback →
    f = { label := c, startTime := some first.ts, endTime := cycleEnd s.tEnd later,
          fields := parse s.config c (cycleBuffer c first later) } →
    Sys2Proof.core.run (cycleEvents first later).length
        { s with events := cycleEvents first later ++ rest } =
      .next { s with
        state := .idle, buf := [], tStart := some first.ts, tEnd := cycleEnd s.tEnd later,
        events := rest, output := some f, frames := s.frames ++ [f] }

/-- The same cycle where the configuration takes the source's missing index as a failure (U4, log entry 9): it faults at
its `Disable` if its own bytes are the six byte response read, and ends as any other cycle if they are not. -/
def Obligations.CycleUnderFaultingShortResponse : Prop :=
  ∀ (s : State) (first : Group) (later : List Group) (op : Byte) (tail : List Byte) (rest : List Event)
    (c : Classified) (f : DecodedFrame),
    first.toChip = op :: tail → c = opClass op → s.config.shortD5 = .fault →
    f = { label := c, startTime := some first.ts, endTime := cycleEnd s.tEnd later,
          fields := parse s.config c (cycleBuffer c first later) } →
    (isSixByteResponse c (cycleBuffer c first later) →
      Sys2Proof.core.run (cycleEvents first later).length
          { s with events := cycleEvents first later ++ rest } = .fault .shortResponse) ∧
    (¬isSixByteResponse c (cycleBuffer c first later) →
      Sys2Proof.core.run (cycleEvents first later).length
          { s with events := cycleEvents first later ++ rest } =
        .next { s with
          state := .idle, buf := [], tStart := some first.ts, tEnd := cycleEnd s.tEnd later,
          events := rest, output := some f, frames := s.frames ++ [f] })

/-! ## Encodings -/

/-- Decoding the encoding of a well-formed instruction gives it back, with every operand: all 49 rows. The rows that
are no events as instructions: log entry 7. -/
def Obligations.DecodeOfEncode : Prop := ∀ i : Instr, i.wf = true → decode (encode i) = .ok i

/-- Encoding what a buffer or a first group decodes to gives the buffer or group back: no byte is dropped. -/
def Obligations.EncodeOfDecode : Prop :=
  (∀ (st : Classified) (b : List Byte), encode (decodeFrame st b) = .frame st b) ∧
  (∀ (g : Group) (i : Instr), decodeOperation g = .ok i → encode i = .operation g)

/-- Whatever is decoded is well formed, a shape read on to its `cmd` row too (log entry 7). -/
def Obligations.DecodedInstructionsAreWellFormed : Prop :=
  ∀ (code : Code) (i : Instr), decode code = .ok i → i.wf = true

/-- Rule R67: a decoder written from the opcode table alone, first match in priority order, picks the same row. -/
def Obligations.TableSelectsTheDecodedRow : Prop :=
  ∀ (st : Classified) (b : List Byte), selectFrameRow st b = some (mnemonic (decodeFrame st b))

/-- Rule R115: no buffer is taken by two rows but for the fallback. -/
def Obligations.ShapeRowsExcludeEachOther : Prop :=
  ∀ r ∈ frameRows, ∀ r' ∈ frameRows, r.priority < 99 → r'.priority < 99 →
    ∀ (st : Classified) (b : List Byte), frameRowTakes r st b = true → frameRowTakes r' st b = true → r = r'

/-- Rule R52: the class of each of the 256 operation bytes. -/
def Obligations.OperationByteClasses : Prop :=
  ∀ op : Byte, opClass op =
    if op.toNat % 4 = 2 then .readingStatus else if op.toNat % 4 = 3 then .readingData
    else if op.toNat % 4 = 1 then .writingData else .rawCapture

/-- Words written out from the rules' encodings decode to what they stand for (rules R52, R104, R106, R109, R113);
the rows as instructions are log entry 7. -/
def Obligations.SampleWordsDecode : Prop :=
  decode (.operation ⟨[0xFE], [], ⟨1⟩, ⟨2⟩⟩) = .ok (.opStatusRead ⟨0x3F#6, [], [], ⟨1⟩, ⟨2⟩⟩) ∧
  decode (.frame .readingData [0x00, 0x00, 0xFF, 0x00, 0xFF, 0x00, 0x07]) = .ok (.ackRead [0x07]) ∧
  decode (.frame .readingData [0x00, 0x00, 0xFF, 0x03, 0xFD, 0xD5, 0x03, 0x11, 0x22]) =
    .ok (.resp 0x03 0xFD 0x03 [0x11, 0x22]) ∧
  decode (.command .writingData [0x00, 0x00, 0xFF, 0x03, 0xFD, 0xD4, 0x02, 0x00, 0x2A]) =
    .ok (.cmdGetFirmwareVersion (.write 0x00 0x00 0xFF 0x03 0xFD [0x00, 0x2A])) ∧
  decode (.frame .rawCapture [0x00, 0x00, 0xFF, 0xFF, 0x00, 0x00]) = .ok .nackRaw

/-! ## The output record as the host renders it -/

/-- Rules R5, R21, R60, R135: each label and the sentinel are rendered as the configured texts, a name as itself, the
times as the timestamps of the host's type that their names stand for, the markers as the fixed strings; data is passed
on. -/
def Obligations.RenderingFollowsTheConfiguration : Prop :=
  ∀ (T : Type) (p : Parameters T) (f : DecodedFrame) (n : String),
    (f.label = .readingStatus → (renderFrame p f).label = p.labelText.readingStatus) ∧
    (f.label = .readingData → (renderFrame p f).label = p.labelText.readingData) ∧
    (f.label = .writingData → (renderFrame p f).label = p.labelText.writingData) ∧
    (f.label = .rawCapture → (renderFrame p f).label = p.labelText.rawCapture) ∧
    (renderFrame p f).startTime = f.startTime.map p.timeOf ∧ (renderFrame p f).endTime = f.endTime.map p.timeOf ∧
    (renderFrame p f).data = f.fields.data ∧
    (f.fields.cmd = some (.name n) → (renderFrame p f).cmd = some n) ∧
    (f.fields.cmd = some .unknown → (renderFrame p f).cmd = some p.unknownText) ∧
    (f.fields.cmd = none → (renderFrame p f).cmd = none) ∧
    markerText .ack = some "ACK" ∧ markerText .nack = some "NACK"
end

