-- ==== Sys2Proof/Laws/Operands.lean ====
section
/-! SUPPORT. What the operand forms compute, said once: the operation byte, the clamp, a carrier's payload and key. -/

namespace Sys2Proof.Machine

theorem opClassBits_opByte (hi : BitVec 6) (cls : BitVec 2) : opClassBits (opByte hi cls) = cls := by
  revert hi cls; decide

theorem opIgnoredBits_opByte (hi : BitVec 6) (cls : BitVec 2) : opIgnoredBits (opByte hi cls) = hi := by
  revert hi cls; decide

theorem opByte_of_bits (op : Byte) : opByte (opIgnoredBits op) (opClassBits op) = op := by
  revert op; decide

/-- The class bits as a number modulo four. -/
theorem opClassBits_eq_mod (op : Byte) : (opClassBits op).toNat = op.toNat % 4 := by
  revert op; decide

/-- The clamp in natural numbers. -/
theorem clampIndex_eq (i : Int) (n : Nat) : clampIndex i n = min i.toNat n := by
  unfold clampIndex; omega

/-- A slice is a take of a drop, with its bounds cut at zero. -/
theorem slice_eq_take_drop (b : List Byte) (lo hi : Int) :
    slice b lo hi = (b.drop lo.toNat).take (hi.toNat - lo.toNat) := by
  rw [slice, clampIndex_eq, clampIndex_eq]
  by_cases h : min lo.toNat b.length < min hi.toNat b.length
  · rw [if_pos h, show min lo.toNat b.length = lo.toNat by omega, List.take_eq_take_iff, List.length_drop]
    omega
  · rw [if_neg h, eq_comm, List.take_eq_nil_iff, List.drop_eq_nil_iff]
    omega

/-- The payload in natural numbers (rule R58). -/
theorem payload_eq (b : List Byte) : payload b = (b.drop 7).take ((byteAt b 3).toNat - 2) := by
  have h : (7 + li b - 1).toNat - (7 : Int).toNat = (byteAt b 3).toNat - 2 := by
    simp only [li, zext]; omega
  rw [payload, slice_eq_take_drop, h]
  rfl

/-- A carrier's payload is the first `L - 2` bytes from index 7 on. -/
theorem payload_carrierBytes (f : Carrier) (pd0 : Byte) :
    payload (carrierBytes f pd0) = (carrierRest f).take ((carrierLen f).toNat - 2) := by
  rw [payload_eq]
  cases f <;> rfl

/-- Looking a carrier's opcode byte for a key up is looking the key up, for every key below `0xFF`. -/
theorem carrierKey_carrierOpcode (f : Carrier) (key : Byte) (h : key ≠ 0xFF) :
    carrierKey f (carrierOpcode f key) = zext key := by
  cases f with
  | write => rfl
  | resp =>
    simp only [carrierKey, carrierOpcode, zext]
    have : (key + 1).toNat = key.toNat + 1 := by
      have hk : key.toNat ≠ 255 := fun e => h (BitVec.eq_of_toNat_eq (by simpa using e))
      have := key.isLt
      simp [BitVec.toNat_add]; omega
    omega

/-- And the converse: the opcode byte is the one its own key asks for. -/
theorem carrierOpcode_of_key (f : Carrier) (pd0 key : Byte) (h : carrierKey f pd0 = zext key) :
    carrierOpcode f key = pd0 := by
  cases f with
  | write =>
    simp only [carrierKey, zext] at h
    exact BitVec.eq_of_toNat_eq (by simp only [carrierOpcode]; omega)
  | resp =>
    simp only [carrierKey, zext] at h
    apply BitVec.eq_of_toNat_eq
    have h1 := key.isLt
    have h2 := pd0.isLt
    simp only [carrierOpcode, BitVec.toNat_add]
    have : (1 : Byte).toNat = 1 := rfl
    omega

/-- A lookup never fails: it is a name or the sentinel. -/
theorem lookup_cases (c : Config) (k : Int) : (∃ n, lookup c k = .name n) ∨ lookup c k = .unknown := by
  cases h : lookup c k with
  | name n => exact .inl ⟨n, rfl⟩
  | unknown => exact .inr rfl

end Sys2Proof.Machine
end

