-- ==== Sys2Proof/Laws/Decode.lean ====
section
/-! SUPPORT. The decoder's lemmas: what each level answers, said once. -/

namespace Sys2Proof.Machine

/-- The `cmd` rows' keys are the listed keys, in order. -/
theorem commandRows_keys : commandRows.map Prod.fst = listedKeys := rfl

/-- No two `cmd` rows have one key. -/
theorem listedKeys_nodup : listedKeys.Nodup := by decide

/-- A row is found for exactly the listed keys. -/
theorem commandRows_find_none_iff (k : Int) :
    commandRows.find? (fun r => zext r.1 == k) = none ↔ isListed k = false := by
  have h : isListed k = commandRows.any (fun r => zext r.1 == k) := by
    simp only [isListed, ← commandRows_keys, List.any_map]; rfl
  rw [h, List.find?_eq_none, List.any_eq_false]

/-- What a found row's constructor has been looked up under. -/
theorem commandRows_find_some {k : Int} {r : Byte × (Carrier → Instr)}
    (h : commandRows.find? (fun r => zext r.1 == k) = some r) : r ∈ commandRows ∧ zext r.1 = k := by
  have h1 := List.find?_some h
  exact ⟨List.mem_of_find?_eq_some h, by simpa using h1⟩

/-- A first group is decoded exactly where it has a to-chip byte. -/
theorem decodeOperation_isOk_iff (g : Group) :
    (∃ i, decodeOperation g = .ok i) ↔ g.toChip ≠ [] := by
  unfold decodeOperation
  split <;> simp_all

/-- The buffer at the end of a cycle decodes to a shape in every case. -/
theorem decode_frame (st : Classified) (b : List Byte) : decode (.frame st b) = .ok (decodeFrame st b) := rfl

/-- And, read on to its key, to a row in every case. -/
theorem decode_command (st : Classified) (b : List Byte) :
    decode (.command st b) = .ok (refineCommand (decodeFrame st b)) := rfl

/-- The class of an operation byte by its two low bits. -/
theorem opClass_of_bits (op : Byte) :
    (opClassBits op = 0b10#2 ∧ opClass op = .readingStatus) ∨ (opClassBits op = 0b11#2 ∧ opClass op = .readingData) ∨
    (opClassBits op = 0b01#2 ∧ opClass op = .writingData) ∨ (opClassBits op = 0b00#2 ∧ opClass op = .rawCapture) := by
  revert op; decide

/-- The class of an operation byte by the class bits it was made with. -/
theorem opClass_opByte (hi : BitVec 6) (cls : BitVec 2) :
    opClass (opByte hi cls) =
      if cls = 0b10#2 then .readingStatus else if cls = 0b11#2 then .readingData
      else if cls = 0b01#2 then .writingData else .rawCapture := by
  simp [opClass, opClassBits_opByte]

/-- What an operation byte row's group decodes to. -/
theorem decodeOperation_opGroup (o : OpGroup) (cls : BitVec 2) :
    decodeOperation (opGroup o cls) =
      .ok (match opClass (opByte o.hi cls) with
        | .readingStatus => .opStatusRead o
        | .readingData => .opDataRead o
        | .writingData => .opDataWrite o
        | .rawCapture => .opRaw o) := by
  cases h : opClass (opByte o.hi cls) <;> simp [decodeOperation, opGroup, opIgnoredBits_opByte, h]

/-- A well-formed carrier's buffer is read to its shape and on to the row of its key. -/
theorem refine_decode_carrierBytes (f : Carrier) (pd0 : Byte) (hw : f.wf = true) :
    refineCommand (decodeFrame (carrierLabel f) (carrierBytes f pd0)) = commandRow f pd0 := by
  cases f with
  | resp len lcs rest =>
    simp [carrierLabel, carrierBytes, preamble, decodeFrame, decodeData, decodeDataBody, ackCode, nackCode,
      respDirection, refineCommand]
  | write b0 b1 b2 len lcs rest =>
    obtain ⟨h1, h2⟩ : 1 < zext len ∧ 2 ≤ rest.length := by simpa [Carrier.wf] using hw
    match rest, h2 with
    | x :: y :: r, _ => simp [carrierLabel, carrierBytes, decodeFrame, decodeWrite, refineCommand, h1]

end Sys2Proof.Machine
end

