-- ==== Sys2Proof/Laws/State.lean ====
section
/-! SUPPORT. One lemma per field per update of State (by rfl, for simp), for the seven register writes and the four
effects built from them, so that no proof unfolds a record update. -/

namespace Sys2Proof.Machine

@[simp] theorem State.goto_state (s : State) (st : DecoderState) : (s.goto st).state = st := rfl
@[simp] theorem State.goto_buf (s : State) (st : DecoderState) : (s.goto st).buf = s.buf := rfl
@[simp] theorem State.goto_tStart (s : State) (st : DecoderState) : (s.goto st).tStart = s.tStart := rfl
@[simp] theorem State.goto_tEnd (s : State) (st : DecoderState) : (s.goto st).tEnd = s.tEnd := rfl
@[simp] theorem State.goto_events (s : State) (st : DecoderState) : (s.goto st).events = s.events := rfl
@[simp] theorem State.goto_output (s : State) (st : DecoderState) : (s.goto st).output = s.output := rfl
@[simp] theorem State.goto_frames (s : State) (st : DecoderState) : (s.goto st).frames = s.frames := rfl
@[simp] theorem State.goto_config (s : State) (st : DecoderState) : (s.goto st).config = s.config := rfl

@[simp] theorem State.clearBuf_state (s : State) : (s.clearBuf).state = s.state := rfl
@[simp] theorem State.clearBuf_buf (s : State) : (s.clearBuf).buf = [] := rfl
@[simp] theorem State.clearBuf_tStart (s : State) : (s.clearBuf).tStart = s.tStart := rfl
@[simp] theorem State.clearBuf_tEnd (s : State) : (s.clearBuf).tEnd = s.tEnd := rfl
@[simp] theorem State.clearBuf_events (s : State) : (s.clearBuf).events = s.events := rfl
@[simp] theorem State.clearBuf_output (s : State) : (s.clearBuf).output = s.output := rfl
@[simp] theorem State.clearBuf_frames (s : State) : (s.clearBuf).frames = s.frames := rfl
@[simp] theorem State.clearBuf_config (s : State) : (s.clearBuf).config = s.config := rfl

@[simp] theorem State.append_state (s : State) (v : List Byte) : (s.append v).state = s.state := rfl
@[simp] theorem State.append_buf (s : State) (v : List Byte) : (s.append v).buf = s.buf ++ v := rfl
@[simp] theorem State.append_tStart (s : State) (v : List Byte) : (s.append v).tStart = s.tStart := rfl
@[simp] theorem State.append_tEnd (s : State) (v : List Byte) : (s.append v).tEnd = s.tEnd := rfl
@[simp] theorem State.append_events (s : State) (v : List Byte) : (s.append v).events = s.events := rfl
@[simp] theorem State.append_output (s : State) (v : List Byte) : (s.append v).output = s.output := rfl
@[simp] theorem State.append_frames (s : State) (v : List Byte) : (s.append v).frames = s.frames := rfl
@[simp] theorem State.append_config (s : State) (v : List Byte) : (s.append v).config = s.config := rfl

@[simp] theorem State.stampStart_state (s : State) (t : Time) : (s.stampStart t).state = s.state := rfl
@[simp] theorem State.stampStart_buf (s : State) (t : Time) : (s.stampStart t).buf = s.buf := rfl
@[simp] theorem State.stampStart_tStart (s : State) (t : Time) : (s.stampStart t).tStart = some t := rfl
@[simp] theorem State.stampStart_tEnd (s : State) (t : Time) : (s.stampStart t).tEnd = s.tEnd := rfl
@[simp] theorem State.stampStart_events (s : State) (t : Time) : (s.stampStart t).events = s.events := rfl
@[simp] theorem State.stampStart_output (s : State) (t : Time) : (s.stampStart t).output = s.output := rfl
@[simp] theorem State.stampStart_frames (s : State) (t : Time) : (s.stampStart t).frames = s.frames := rfl
@[simp] theorem State.stampStart_config (s : State) (t : Time) : (s.stampStart t).config = s.config := rfl

@[simp] theorem State.stampEnd_state (s : State) (t : Time) : (s.stampEnd t).state = s.state := rfl
@[simp] theorem State.stampEnd_buf (s : State) (t : Time) : (s.stampEnd t).buf = s.buf := rfl
@[simp] theorem State.stampEnd_tStart (s : State) (t : Time) : (s.stampEnd t).tStart = s.tStart := rfl
@[simp] theorem State.stampEnd_tEnd (s : State) (t : Time) : (s.stampEnd t).tEnd = some t := rfl
@[simp] theorem State.stampEnd_events (s : State) (t : Time) : (s.stampEnd t).events = s.events := rfl
@[simp] theorem State.stampEnd_output (s : State) (t : Time) : (s.stampEnd t).output = s.output := rfl
@[simp] theorem State.stampEnd_frames (s : State) (t : Time) : (s.stampEnd t).frames = s.frames := rfl
@[simp] theorem State.stampEnd_config (s : State) (t : Time) : (s.stampEnd t).config = s.config := rfl

@[simp] theorem State.answer_state (s : State) (o : Option DecodedFrame) : (s.answer o).state = s.state := rfl
@[simp] theorem State.answer_buf (s : State) (o : Option DecodedFrame) : (s.answer o).buf = s.buf := rfl
@[simp] theorem State.answer_tStart (s : State) (o : Option DecodedFrame) : (s.answer o).tStart = s.tStart := rfl
@[simp] theorem State.answer_tEnd (s : State) (o : Option DecodedFrame) : (s.answer o).tEnd = s.tEnd := rfl
@[simp] theorem State.answer_events (s : State) (o : Option DecodedFrame) : (s.answer o).events = s.events := rfl
@[simp] theorem State.answer_output (s : State) (o : Option DecodedFrame) : (s.answer o).output = o := rfl
@[simp] theorem State.answer_frames (s : State) (o : Option DecodedFrame) : (s.answer o).frames = s.frames ++ o.toList := rfl
@[simp] theorem State.answer_config (s : State) (o : Option DecodedFrame) : (s.answer o).config = s.config := rfl

@[simp] theorem State.withEvents_state (s : State) (es : List Event) : (s.withEvents es).state = s.state := rfl
@[simp] theorem State.withEvents_buf (s : State) (es : List Event) : (s.withEvents es).buf = s.buf := rfl
@[simp] theorem State.withEvents_tStart (s : State) (es : List Event) : (s.withEvents es).tStart = s.tStart := rfl
@[simp] theorem State.withEvents_tEnd (s : State) (es : List Event) : (s.withEvents es).tEnd = s.tEnd := rfl
@[simp] theorem State.withEvents_events (s : State) (es : List Event) : (s.withEvents es).events = es := rfl
@[simp] theorem State.withEvents_output (s : State) (es : List Event) : (s.withEvents es).output = s.output := rfl
@[simp] theorem State.withEvents_frames (s : State) (es : List Event) : (s.withEvents es).frames = s.frames := rfl
@[simp] theorem State.withEvents_config (s : State) (es : List Event) : (s.withEvents es).config = s.config := rfl

@[simp] theorem firstGroup_state (s : State) (c : Classified) (g : Group) : (firstGroup c g s).state = .classified c := rfl
@[simp] theorem firstGroup_buf (s : State) (c : Classified) (g : Group) : (firstGroup c g s).buf = s.buf ++ firstLane c g := rfl
@[simp] theorem firstGroup_tStart (s : State) (c : Classified) (g : Group) : (firstGroup c g s).tStart = some g.ts := rfl
@[simp] theorem firstGroup_tEnd (s : State) (c : Classified) (g : Group) : (firstGroup c g s).tEnd = s.tEnd := rfl
@[simp] theorem firstGroup_events (s : State) (c : Classified) (g : Group) : (firstGroup c g s).events = s.events := rfl
@[simp] theorem firstGroup_output (s : State) (c : Classified) (g : Group) : (firstGroup c g s).output = none := rfl
@[simp] theorem firstGroup_frames (s : State) (c : Classified) (g : Group) : (firstGroup c g s).frames = s.frames := List.append_nil _
@[simp] theorem firstGroup_config (s : State) (c : Classified) (g : Group) : (firstGroup c g s).config = s.config := rfl

@[simp] theorem accumulate_state (s : State) (c : Classified) (g : Group) : (accumulate c g s).state = s.state := rfl
@[simp] theorem accumulate_buf (s : State) (c : Classified) (g : Group) : (accumulate c g s).buf = s.buf ++ g.bytes (laneOf c) := rfl
@[simp] theorem accumulate_tStart (s : State) (c : Classified) (g : Group) : (accumulate c g s).tStart = s.tStart := rfl
@[simp] theorem accumulate_tEnd (s : State) (c : Classified) (g : Group) : (accumulate c g s).tEnd = some g.te := rfl
@[simp] theorem accumulate_events (s : State) (c : Classified) (g : Group) : (accumulate c g s).events = s.events := rfl
@[simp] theorem accumulate_output (s : State) (c : Classified) (g : Group) : (accumulate c g s).output = none := rfl
@[simp] theorem accumulate_frames (s : State) (c : Classified) (g : Group) : (accumulate c g s).frames = s.frames := List.append_nil _
@[simp] theorem accumulate_config (s : State) (c : Classified) (g : Group) : (accumulate c g s).config = s.config := rfl

@[simp] theorem endCycle_state (s : State) (o : Option DecodedFrame) : (endCycle o s).state = .idle := rfl
@[simp] theorem endCycle_buf (s : State) (o : Option DecodedFrame) : (endCycle o s).buf = [] := rfl
@[simp] theorem endCycle_tStart (s : State) (o : Option DecodedFrame) : (endCycle o s).tStart = s.tStart := rfl
@[simp] theorem endCycle_tEnd (s : State) (o : Option DecodedFrame) : (endCycle o s).tEnd = s.tEnd := rfl
@[simp] theorem endCycle_events (s : State) (o : Option DecodedFrame) : (endCycle o s).events = s.events := rfl
@[simp] theorem endCycle_output (s : State) (o : Option DecodedFrame) : (endCycle o s).output = o := rfl
@[simp] theorem endCycle_frames (s : State) (o : Option DecodedFrame) : (endCycle o s).frames = s.frames ++ o.toList := rfl
@[simp] theorem endCycle_config (s : State) (o : Option DecodedFrame) : (endCycle o s).config = s.config := rfl

@[simp] theorem emitFrame_state (s : State) (l : Classified) (f : Fields) : (emitFrame l f s).state = .idle := rfl
@[simp] theorem emitFrame_buf (s : State) (l : Classified) (f : Fields) : (emitFrame l f s).buf = [] := rfl
@[simp] theorem emitFrame_tStart (s : State) (l : Classified) (f : Fields) : (emitFrame l f s).tStart = s.tStart := rfl
@[simp] theorem emitFrame_tEnd (s : State) (l : Classified) (f : Fields) : (emitFrame l f s).tEnd = s.tEnd := rfl
@[simp] theorem emitFrame_events (s : State) (l : Classified) (f : Fields) : (emitFrame l f s).events = s.events := rfl
@[simp] theorem emitFrame_output (s : State) (l : Classified) (f : Fields) : (emitFrame l f s).output = some (frameOf l f s) := rfl
@[simp] theorem emitFrame_frames (s : State) (l : Classified) (f : Fields) : (emitFrame l f s).frames = s.frames ++ [frameOf l f s] := rfl
@[simp] theorem emitFrame_config (s : State) (l : Classified) (f : Fields) : (emitFrame l f s).config = s.config := rfl

end Sys2Proof.Machine
end

