-- ==== Sys2Proof/Laws/Exec.lean ====
section
/-! SUPPORT. What the meanings and the step can answer, said once each. -/

namespace Sys2Proof.Machine

/-- Everything a byte group can do: a first group in its class, or a later group in its state. -/
theorem execByteGroup_next {g : Group} {s t : State} (h : execByteGroup g s = .next t) :
    (∃ op rest, s.state = .awaitingOperationByte ∧ g.toChip = op :: rest ∧ t = firstGroup (opClass op) g s) ∨
    (∃ c, s.state = .classified c ∧ t = accumulate c g s) := by
  unfold execByteGroup at h
  split at h
  · cases h
  · split at h
    · cases h
    · exact .inl ⟨_, _, ‹_›, ‹_›, by cases h; rfl⟩
  · exact .inr ⟨_, ‹_›, by cases h; rfl⟩

/-- Everything `Disable` can do: end a cycle without a frame, or with the parsed one. -/
theorem execDisable_next {s t : State} (h : execDisable s = .next t) :
    ((∀ c, s.state ≠ .classified c) ∧ t = endCycle none s) ∨
    (∃ c, s.state = .classified c ∧ shortFault s c s.buf = false ∧ t = emitFrame c (parse s.config c s.buf) s) := by
  unfold execDisable at h
  split at h
  · exact .inl ⟨by simp_all, by cases h; rfl⟩
  · exact .inl ⟨by simp_all, by cases h; rfl⟩
  · split at h
    · cases h
    · exact .inr ⟨_, ‹_›, by simp_all, by cases h; rfl⟩

/-- Under the default of U4 nothing faults. -/
theorem shortFault_default (s : State) (st : Classified) (b : List Byte) (h : s.config.shortD5 = .rawFallback) :
    shortFault s st b = false := by
  simp [shortFault, h]

/-- The parser's test for the six byte response read is what the statements say it is. -/
theorem isShortResponse_iff (c : Classified) (b : List Byte) :
    isShortResponse c b = true ↔ isSixByteResponse c b := by
  unfold isSixByteResponse
  rcases b with _ | ⟨b0, _ | ⟨b1, _ | ⟨b2, _ | ⟨b3, _ | ⟨b4, _ | ⟨b5, _ | ⟨b6, r⟩⟩⟩⟩⟩⟩⟩ <;>
    simp [isShortResponse, hasPreamble, hasRespDirection, preamble, respDirection, byteAt]
  tauto

/-- Where the configuration makes the short response a fault, that buffer faults and no other. -/
theorem shortFault_iff (s : State) (c : Classified) (b : List Byte) (h : s.config.shortD5 = .fault) :
    shortFault s c b = true ↔ isSixByteResponse c b := by
  simp [shortFault, h, isShortResponse_iff]

/-- Emitting a carrier, said with its record. -/
theorem emitFrame_carrier (s : State) (f : Carrier) (pd0 : Byte) (cmd : Cmd) :
    emitFrame (carrierLabel f) (commandFields f pd0 cmd) s = closedWith s (commandRecord s f cmd) := by
  simp only [commandFields, payload_carrierBytes]
  rfl

/-- Every `cmd` row with a key emits its carrier with what the table has under that key. -/
theorem exec_of_mem_commandRows :
    ∀ r ∈ commandRows, ∀ (f : Carrier) (s : State), exec (r.2 f) s = .next (emitCommand r.1 f s) := by
  intro r hr f s
  simp only [commandRows, commandRowsLow, commandRowsIn, commandRowsTg, List.cons_append, List.nil_append] at hr
  fin_cases hr <;> rfl

/-! ## The state over a type of timestamps -/

@[simp] theorem State.over_state {T : Type} (v : Time → T) (s : State) : (s.over v).state = s.state := rfl
@[simp] theorem State.over_buf {T : Type} (v : Time → T) (s : State) : (s.over v).buf = s.buf := rfl
@[simp] theorem State.over_tStart {T : Type} (v : Time → T) (s : State) : (s.over v).tStart = s.tStart.map v := rfl
@[simp] theorem State.over_tEnd {T : Type} (v : Time → T) (s : State) : (s.over v).tEnd = s.tEnd.map v := rfl
@[simp] theorem State.over_events {T : Type} (v : Time → T) (s : State) : (s.over v).events = s.events.map (mapTimeEvent v) := rfl
@[simp] theorem State.over_output {T : Type} (v : Time → T) (s : State) : (s.over v).output = s.output.map (mapTimeFrame v) := rfl
@[simp] theorem State.over_frames {T : Type} (v : Time → T) (s : State) : (s.over v).frames = s.frames.map (mapTimeFrame v) := rfl
@[simp] theorem State.over_config {T : Type} (v : Time → T) (s : State) : (s.over v).config = s.config := rfl

/-- Naming the timestamps of an event twice is naming them once. -/
@[simp] theorem mapTimeEvent_mapTimeEvent {T U V : Type} (f : T → U) (g : U → V) (e : EventOver T) :
    mapTimeEvent g (mapTimeEvent f e) = mapTimeEvent (g ∘ f) e := by
  cases e <;> rfl

/-- The same for a frame. -/
@[simp] theorem mapTimeFrame_mapTimeFrame {T U V : Type} (f : T → U) (g : U → V) (r : DecodedFrameOver T) :
    mapTimeFrame g (mapTimeFrame f r) = mapTimeFrame (g ∘ f) r := by
  simp [mapTimeFrame]

/-! ## The step -/

/-- A step with an event takes it off the queue and does what the decoded row does, or refuses the empty group. -/
theorem step_cons {s : State} {e : Event} {rest : List Event} (h : s.events = e :: rest) :
    step s =
      match decode (fetchCode s e) with
      | .ok i => exec i (s.withEvents rest)
      | .error .emptyFirstGroup => .refused .emptyFirstGroup := by
  cases hd : decode (fetchCode s e) <;> simp [step, h, hd]

end Sys2Proof.Machine
end

