-- ==== Sys2Proof/Laws/Memory.lean ====
section
/-! SUPPORT. The buffer as a memory (spec/20_memory.md): its canonical form, reads after appends, and the canonical
form of the command table. -/

namespace Sys2Proof.Machine

/-- The cells of a list counted from any index on have strictly rising addresses. -/
theorem zipIdx_cells_wf (b : List Byte) (n : Nat) :
    Memory.wf ((b.zipIdx n).map (fun p => (p.2, p.1))) := by
  induction b generalizing n with
  | nil => simp [Memory.wf]
  | cons x xs ih =>
    simp only [Memory.wf, List.zipIdx_cons, List.map_cons, List.pairwise_cons] at ih ⊢
    refine ⟨fun c hc => ?_, ih (n + 1)⟩
    obtain ⟨p, hp, rfl⟩ := List.mem_map.mp hc
    have := List.le_snd_of_mem_zipIdx hp
    simp only at this ⊢
    omega

/-- The buffer is in canonical form whatever operation built it: a list indexed from 0 has no other form. -/
theorem bufCells_wf (s : State) : Memory.wf (bufCells s.buf) := zipIdx_cells_wf s.buf 0

/-- Every memory operation keeps the canonical form. -/
theorem append_keeps_wf (s : State) (v : List Byte) : Memory.wf (bufCells (s.append v).buf) := bufCells_wf _

/-- Clearing keeps it. -/
theorem clearBuf_keeps_wf (s : State) : Memory.wf (bufCells s.clearBuf.buf) := bufCells_wf _

/-- Reset's buffer has it. -/
theorem reset_buffer_wf : Memory.wf (bufCells State.reset.buf) := bufCells_wf _

/-- Equal cells are equal buffers. -/
theorem bufCells_injective (a b : List Byte) (h : bufCells a = bufCells b) : a = b := by
  have h' := congrArg (List.map Prod.snd) h
  simpa [bufCells, Function.comp_def, List.zipIdx_map_fst] using h'

/-- An append leaves every byte before the store address. -/
theorem append_readByte_before (s : State) (v : List Byte) (a : Nat) (h : a < s.storeAddr) :
    (s.append v).readByte a = s.readByte a := by
  simp only [State.readByte, State.append_buf]
  exact List.getElem?_append_left h

/-- An append stores its bytes from the store address on. -/
theorem append_readByte_after (s : State) (v : List Byte) (a : Nat) :
    (s.append v).readByte (s.storeAddr + a) = v[a]? := by
  simp only [State.readByte, State.storeAddr, State.append_buf]
  rw [List.getElem?_append_right (Nat.le_add_right _ _), Nat.add_sub_cancel_left]

/-- `MemRead` inside the buffer answers that many bytes. -/
theorem memRead_length (s : State) (addr n : Nat) (r : List Byte) (h : s.memRead addr n = some r) :
    r.length = n ∧ addr + n ≤ s.buf.length := by
  simp only [State.memRead] at h
  split at h
  · cases h
    simp only [List.length_take, List.length_drop]
    omega
  · cases h

/-- The default command table is in canonical form. -/
theorem defaultConfig_tableWf : tableWf defaultConfig := by decide

end Sys2Proof.Machine
end

