-- ==== Sys2Proof/Laws/PerInstr.lean ====
section
/-! SUPPORT. The family TableFit: what the encoder writes for a well-formed instruction is what its row of
spec/opcode_table.json asks for, by the conventions of rule R67. One lemma per constructor. -/

namespace Sys2Proof.Laws.TableFit

open Sys2Proof.Machine

/-- The code fits the instruction's row: an operation byte meets match and mask; a buffer, state and length meet the
`frame` row of that name; a command's lookup key is the row's, or for `CMD_UNKNOWN` no row's. -/
def Fits (i : Instr) : Code → Prop
  | .event e => Instr.ofEvent e = i
  | .operation g =>
    ∃ pm op rest, opPattern i = some pm ∧ g.toChip = op :: rest ∧ op &&& pm.2 = pm.1
  | .frame st b => ∃ r ∈ frameRows, r.mnemonic = mnemonic i ∧ frameRowTakes r st b = true
  | .command st b =>
    ∃ f pd0, st = carrierLabel f ∧ b = carrierBytes f pd0 ∧
      match rowKey i with
      | some key => carrierKey f pd0 = zext key
      | none => isListed (carrierKey f pd0) = false

/-- The family's statement. -/
def Statement (i : Instr) : Prop := i.wf = true → Fits i (encode i)

theorem opByte_meets_mask (hi : BitVec 6) (cls : BitVec 2) : opByte hi cls &&& 0x03 = cls.zeroExtend 8 := by
  revert hi cls; decide

theorem command_fits {i : Instr} {key : Byte} (f : Carrier) (he : encode i = encodeCommand key f)
    (hk : rowKey i = some key) (h : key ≠ 0xFF) : Statement i := by
  intro _
  rw [he]
  exact ⟨f, carrierOpcode f key, rfl, rfl, by rw [hk]; exact carrierKey_carrierOpcode f key h⟩

theorem enable : Statement .enable := fun _ => rfl
theorem byteGroup (g : Group) : Statement (.byteGroup g) := fun _ => rfl
theorem disable : Statement .disable := fun _ => rfl

theorem opStatusRead (o : OpGroup) : Statement (.opStatusRead o) := fun _ =>
  ⟨_, _, _, rfl, rfl, opByte_meets_mask o.hi 0b10#2⟩
theorem opDataRead (o : OpGroup) : Statement (.opDataRead o) := fun _ =>
  ⟨_, _, _, rfl, rfl, opByte_meets_mask o.hi 0b11#2⟩
theorem opDataWrite (o : OpGroup) : Statement (.opDataWrite o) := fun _ =>
  ⟨_, _, _, rfl, rfl, opByte_meets_mask o.hi 0b01#2⟩
theorem opRaw (o : OpGroup) : Statement (.opRaw o) := fun _ =>
  ⟨_, _, _, rfl, rfl, opByte_meets_mask o.hi 0b00#2⟩

theorem status (b : Byte) : Statement (.status b) := by
  exact fun _ => ⟨frameRows[0], by decide, rfl, rfl⟩
theorem ackRead (rest : List Byte) : Statement (.ackRead rest) := by
  refine fun _ => ⟨frameRows[1], by decide, rfl, ?_⟩
  simp [frameRows, frameRowTakes, lenHolds, maskedEq, preamble, ackCode]
theorem nackRead (rest : List Byte) : Statement (.nackRead rest) := by
  refine fun _ => ⟨frameRows[2], by decide, rfl, ?_⟩
  simp [frameRows, frameRowTakes, lenHolds, maskedEq, preamble, nackCode]
theorem resp (len lcs pd0 : Byte) (rest : List Byte) : Statement (.resp len lcs pd0 rest) := by
  refine fun _ => ⟨frameRows[3], by decide, rfl, ?_⟩
  simp [frameRows, frameRowTakes, lenHolds, maskedEq, preamble, respDirection, carrierBytes]
theorem respShort (len lcs : Byte) : Statement (.respShort len lcs) := by
  refine fun _ => ⟨frameRows[4], by decide, rfl, ?_⟩
  simp [frameRows, frameRowTakes, lenHolds, maskedEq, preamble, respDirection]
theorem cmdWrite (b0 b1 b2 len lcs pd0 : Byte) (rest : List Byte) : Statement (.cmdWrite b0 b1 b2 len lcs pd0 rest) := by
  intro h
  obtain ⟨h1, h2⟩ : 1 < zext len ∧ 2 ≤ rest.length := by simpa [Instr.wf, Carrier.wf] using h
  refine ⟨frameRows[5], by decide, rfl, ?_⟩
  simp [frameRows, frameRowTakes, lenHolds, maskedEq, cmdDirection, carrierBytes, lengthAboveOne, byteAt, h1, h2]
theorem ackRaw : Statement .ackRaw := by
  exact fun _ => ⟨frameRows[6], by decide, rfl, rfl⟩
theorem nackRaw : Statement .nackRaw := by
  exact fun _ => ⟨frameRows[7], by decide, rfl, rfl⟩
theorem rawFallback (st : Classified) (b : List Byte) : Statement (.rawFallback st b) := by
  exact fun _ => ⟨frameRows[8], by decide, rfl, by cases st <;> rfl⟩

theorem cmdDiagnose (f : Carrier) : Statement (.cmdDiagnose f) := command_fits f rfl rfl (by decide)
theorem cmdGetFirmwareVersion (f : Carrier) : Statement (.cmdGetFirmwareVersion f) := command_fits f rfl rfl (by decide)
theorem cmdGetGeneralStatus (f : Carrier) : Statement (.cmdGetGeneralStatus f) := command_fits f rfl rfl (by decide)
theorem cmdReadRegister (f : Carrier) : Statement (.cmdReadRegister f) := command_fits f rfl rfl (by decide)
theorem cmdWriteRegister (f : Carrier) : Statement (.cmdWriteRegister f) := command_fits f rfl rfl (by decide)
theorem cmdReadGPIO (f : Carrier) : Statement (.cmdReadGPIO f) := command_fits f rfl rfl (by decide)
theorem cmdWriteGPIO (f : Carrier) : Statement (.cmdWriteGPIO f) := command_fits f rfl rfl (by decide)
theorem cmdSetSerialBaudRate (f : Carrier) : Statement (.cmdSetSerialBaudRate f) := command_fits f rfl rfl (by decide)
theorem cmdSetParameters (f : Carrier) : Statement (.cmdSetParameters f) := command_fits f rfl rfl (by decide)
theorem cmdSAMConfiguration (f : Carrier) : Statement (.cmdSAMConfiguration f) := command_fits f rfl rfl (by decide)
theorem cmdPowerDown (f : Carrier) : Statement (.cmdPowerDown f) := command_fits f rfl rfl (by decide)
theorem cmdRFConfiguration (f : Carrier) : Statement (.cmdRFConfiguration f) := command_fits f rfl rfl (by decide)
theorem cmdInDataExchange (f : Carrier) : Statement (.cmdInDataExchange f) := command_fits f rfl rfl (by decide)
theorem cmdInCommunicateThru (f : Carrier) : Statement (.cmdInCommunicateThru f) := command_fits f rfl rfl (by decide)
theorem cmdInDeselect (f : Carrier) : Statement (.cmdInDeselect f) := command_fits f rfl rfl (by decide)
theorem cmdInJumpForPSL (f : Carrier) : Statement (.cmdInJumpForPSL f) := command_fits f rfl rfl (by decide)
theorem cmdInListPassiveTarget (f : Carrier) : Statement (.cmdInListPassiveTarget f) := command_fits f rfl rfl (by decide)
theorem cmdInPSL (f : Carrier) : Statement (.cmdInPSL f) := command_fits f rfl rfl (by decide)
theorem cmdInATR (f : Carrier) : Statement (.cmdInATR f) := command_fits f rfl rfl (by decide)
theorem cmdInRelease (f : Carrier) : Statement (.cmdInRelease f) := command_fits f rfl rfl (by decide)
theorem cmdInSelect (f : Carrier) : Statement (.cmdInSelect f) := command_fits f rfl rfl (by decide)
theorem cmdInJumpForDEP (f : Carrier) : Statement (.cmdInJumpForDEP f) := command_fits f rfl rfl (by decide)
theorem cmdRFRegulationTest (f : Carrier) : Statement (.cmdRFRegulationTest f) := command_fits f rfl rfl (by decide)
theorem cmdInAutoPoll (f : Carrier) : Statement (.cmdInAutoPoll f) := command_fits f rfl rfl (by decide)
theorem cmdTgGetData (f : Carrier) : Statement (.cmdTgGetData f) := command_fits f rfl rfl (by decide)
theorem cmdTgGetInitiatorCommand (f : Carrier) : Statement (.cmdTgGetInitiatorCommand f) := command_fits f rfl rfl (by decide)
theorem cmdTgGetTargetStatus (f : Carrier) : Statement (.cmdTgGetTargetStatus f) := command_fits f rfl rfl (by decide)
theorem cmdTgInitAsTarget (f : Carrier) : Statement (.cmdTgInitAsTarget f) := command_fits f rfl rfl (by decide)
theorem cmdTgSetData (f : Carrier) : Statement (.cmdTgSetData f) := command_fits f rfl rfl (by decide)
theorem cmdTgResponseToInitiator (f : Carrier) : Statement (.cmdTgResponseToInitiator f) := command_fits f rfl rfl (by decide)
theorem cmdTgSetGeneralBytes (f : Carrier) : Statement (.cmdTgSetGeneralBytes f) := command_fits f rfl rfl (by decide)
theorem cmdTgSetMetaData (f : Carrier) : Statement (.cmdTgSetMetaData f) := command_fits f rfl rfl (by decide)

theorem cmdUnknown (pd0 : Byte) (f : Carrier) : Statement (.cmdUnknown pd0 f) := fun h => by
  simp only [Instr.wf, Bool.and_eq_true, Bool.not_eq_true'] at h
  exact ⟨f, pd0, rfl, rfl, h.2⟩

end Sys2Proof.Laws.TableFit
end

