-- ==== Sys2Proof/Machine/Trace.lean ====
section
/-! DEFINITION. The shorthands of the trace notation, as the event lists they expand to (rule R65). `xx`, any byte, and
the times the notation omits are arguments. That one expansion takes ONE byte for all its `xx` and ONE pair of times for
all its groups, where the rule leaves open whether they are one value or independent, is the model's choice.
DESIGN CHOICE, safe: log entry 23. -/

namespace Sys2Proof.Machine

/-- `BGS(to=[...], from=[...])`: one single-byte group per position. The notation shows lists of one length only; that
the expansion of unequal lists ends with the shorter one, the other's further bytes left out, is the model's choice.
DESIGN CHOICE, safe: log entry 22. No other shorthand expands to unequal lists. One pair of times for all groups: log
entry 23. -/
def traceBgs (ts te : Time) : List Byte → List Byte → List Event
  | t :: tos, f :: froms => .byteGroup ⟨[t], [f], ts, te⟩ :: traceBgs ts te tos froms
  | _, _ => []

/-- `WR(f)`: a write cycle of the frame bytes. One `xx`, one `ts` and one `te` for all positions: log entry 23. -/
def traceWr (xx : Byte) (ts te : Time) (f : List Byte) : List Event :=
  [.enable, .byteGroup ⟨[0x01], [xx], ts, te⟩] ++ traceBgs ts te f (f.map (fun _ => xx)) ++ [.disable]

/-- `RD(f)`: a data read cycle that returns the frame bytes. One `xx`, `ts`, `te` for all positions: log entry 23. -/
def traceRd (xx : Byte) (ts te : Time) (f : List Byte) : List Event :=
  [.enable, .byteGroup ⟨[0x03], [xx], ts, te⟩] ++ traceBgs ts te (f.map (fun _ => xx)) f ++ [.disable]

/-- `ST(s)`: a status read that returns one byte. One `xx`, `ts`, `te` for both groups: log entry 23. -/
def traceSt (xx : Byte) (ts te : Time) (b : Byte) : List Event :=
  [.enable, .byteGroup ⟨[0x02], [xx], ts, te⟩, .byteGroup ⟨[xx], [b], ts, te⟩, .disable]

end Sys2Proof.Machine
end

