-- ==== Sys2Proof/Tests/Slice0.lean ====
section
/-! SUPPORT. Tests: the well-formedness smoke test, words written out from the spec's encodings, the spec's test vectors
(spec/95_test_vectors.md, its numbers V<n> in the comments), and a witness for every statement that has hypotheses. -/

open Sys2Proof Sys2Proof.Machine

namespace Sys2Proof.Tests

/-! ## Helpers -/

def t1 : Time := ⟨1⟩
def t2 : Time := ⟨2⟩
def t5 : Time := ⟨5⟩
def t6 : Time := ⟨6⟩

/-- A small state. -/
def st (c : DecoderState) (b : List Byte) : State :=
  { State.reset with state := c, buf := b, tStart := some t1, tEnd := some t2 }

/-- The same with events pending. -/
def stE (c : DecoderState) (b : List Byte) (es : List Event) : State := { st c b with events := es }

def outNext : Host.Outcome State Fault Refusal → Option State
  | .next s => some s
  | .fault _ => none
  | .refused _ => none

def outFault : Host.Outcome State Fault Refusal → Option Fault
  | .fault r => some r
  | .next _ => none
  | .refused _ => none

def outRefusal : Host.Outcome State Fault Refusal → Option Refusal
  | .refused r => some r
  | .next _ => none
  | .fault _ => none

/-- The four registers (rule R10). -/
structure Regs where
  state : DecoderState
  buf : List Byte
  tStart : Option Time
  tEnd : Option Time
  deriving DecidableEq, Repr

/-- The registers after an instruction. -/
def regsAfter (i : Instr) (s : State) : Option Regs :=
  (outNext (exec i s)).map (fun t => ⟨t.state, t.buf, t.tStart, t.tEnd⟩)

/-- The label and fields of the frame an instruction emits. -/
def emitted (i : Instr) (s : State) : Option (Classified × Fields) :=
  ((outNext (exec i s)).bind State.output).map (fun f => (f.label, f.fields))

/-- The label and fields of the frame a step emits. -/
def stepEmits (s : State) : Option (Classified × Fields) :=
  ((outNext (step s)).bind State.output).map (fun f => (f.label, f.fields))

def raw (b : List Byte) : Fields := { data := .bytes b, cmd := none }

/-- A byte group with one lane each and the times of spec/95_test_vectors.md section 2.2. -/
def grp (a b : List Byte) : Group := ⟨a, b, t5, t6⟩

/-! ## Ill-formed terms (spec/41_parser.md rule R109, spec/30_encoding.md rule R67) -/

theorem test_wf_refuses_write_with_length_one :
    (Instr.cmdWrite 0x00 0x00 0xFF 0x01 0xFF 0x02 [0x2A, 0x00]).wf = false := by decide
theorem test_wf_refuses_write_of_eight_bytes :
    (Instr.cmdWrite 0x00 0x00 0xFF 0x02 0xFE 0x02 [0x2A]).wf = false := by decide
theorem test_wf_refuses_raw_status_byte : (Instr.rawFallback .readingStatus [0x01]).wf = false := by decide
theorem test_wf_refuses_raw_read_ack :
    (Instr.rawFallback .readingData [0x00, 0x00, 0xFF, 0x00, 0xFF, 0x00, 0x07]).wf = false := by decide
theorem test_wf_refuses_raw_short_response :
    (Instr.rawFallback .readingData [0x00, 0x00, 0xFF, 0x02, 0xFE, 0xD5]).wf = false := by decide
theorem test_wf_refuses_raw_written_command :
    (Instr.rawFallback .writingData [0x00, 0x00, 0xFF, 0x02, 0xFE, 0xD4, 0x02, 0x2A, 0x00]).wf = false := by decide
theorem test_wf_refuses_raw_capture_nack :
    (Instr.rawFallback .rawCapture [0x00, 0x00, 0xFF, 0xFF, 0x00, 0x00]).wf = false := by decide
theorem test_wf_refuses_command_on_short_carrier :
    (Instr.cmdDiagnose (.write 0x00 0x00 0xFF 0x02 0xFE [0x2A])).wf = false := by decide
theorem test_wf_refuses_unknown_row_for_listed_key :
    (Instr.cmdUnknown 0x03 (.resp 0x02 0xFE [])).wf = false := by decide
theorem test_wf_accepts_unknown_row_for_key_minus_one :
    (Instr.cmdUnknown 0x00 (.resp 0x02 0xFE [])).wf = true := by decide

/-! ## Decoding: words written out from the spec's encodings -/

theorem test_decode_events :
    decode (.event .enable) = .ok .enable ∧ decode (.event .disable) = .ok .disable ∧
    decode (.event (.byteGroup (grp [0x01] [0xFF]))) = .ok (.byteGroup (grp [0x01] [0xFF])) := by decide
/-- Rule R52: 1111 11|10, 0000 00|11, 0000 01|01, 0000 01|00. -/
theorem test_decode_operation_bytes :
    decode (.operation (grp [0xFE, 0x07] [0x09])) = .ok (.opStatusRead ⟨0x3F#6, [0x07], [0x09], t5, t6⟩) ∧
    decode (.operation (grp [0x03] [])) = .ok (.opDataRead ⟨0#6, [], [], t5, t6⟩) ∧
    decode (.operation (grp [0x05] [])) = .ok (.opDataWrite ⟨1#6, [], [], t5, t6⟩) ∧
    decode (.operation (grp [0x04, 0x07] [])) = .ok (.opRaw ⟨1#6, [0x07], [], t5, t6⟩) := by decide
theorem test_decode_rejects_empty_first_group :
    decode (.operation (grp [] [0x03])) = .error .emptyFirstGroup := by decide
theorem test_decode_status : decode (.frame .readingStatus [0x01]) = .ok (.status 0x01) := by decide
theorem test_decode_read_markers :
    decode (.frame .readingData [0x00, 0x00, 0xFF, 0x00, 0xFF, 0x00, 0x12]) = .ok (.ackRead [0x12]) ∧
    decode (.frame .readingData [0x00, 0x00, 0xFF, 0xFF, 0x00, 0x00]) = .ok (.nackRead []) := by decide
theorem test_decode_responses :
    decode (.frame .readingData [0x00, 0x00, 0xFF, 0x02, 0xFE, 0xD5, 0x15]) = .ok (.resp 0x02 0xFE 0x15 []) ∧
    decode (.frame .readingData [0x00, 0x00, 0xFF, 0x02, 0xFE, 0xD5]) = .ok (.respShort 0x02 0xFE) := by decide
theorem test_decode_write :
    decode (.frame .writingData [0xAA, 0xBB, 0xCC, 0x03, 0x00, 0xD4, 0x02, 0x00, 0x11]) =
      .ok (.cmdWrite 0xAA 0xBB 0xCC 0x03 0x00 0x02 [0x00, 0x11]) := by decide
theorem test_decode_raw_markers :
    decode (.frame .rawCapture [0x00, 0x00, 0xFF, 0x00, 0xFF, 0x00]) = .ok .ackRaw ∧
    decode (.frame .rawCapture [0x00, 0x00, 0xFF, 0xFF, 0x00, 0x00]) = .ok .nackRaw := by decide
theorem test_decode_fallback :
    decode (.frame .rawCapture [0x00, 0x00, 0xFF, 0x02, 0xFE, 0xD4]) =
      .ok (.rawFallback .rawCapture [0x00, 0x00, 0xFF, 0x02, 0xFE, 0xD4]) := by decide

/-- A written frame with this opcode byte, read to its `cmd` row. -/
def wrote (op : Byte) : Option Instr :=
  (decode (.command .writingData [0x00, 0x00, 0xFF, 0x03, 0xFD, 0xD4, op, 0x07, 0x2A])).toOption
/-- A response with this opcode byte, read to its `cmd` row. -/
def read (op : Byte) : Option Instr :=
  (decode (.command .readingData [0x00, 0x00, 0xFF, 0x03, 0xFD, 0xD5, op, 0x07, 0x2A])).toOption
/-- The carriers of the two. -/
def wc : Carrier := .write 0x00 0x00 0xFF 0x03 0xFD [0x07, 0x2A]
def rc : Carrier := .resp 0x03 0xFD [0x07, 0x2A]

/-- Keys as rule R133 lists them. -/
theorem test_decode_chip_commands :
    wrote 0x00 = some (.cmdDiagnose wc) ∧ read 0x01 = some (.cmdDiagnose rc) ∧
    wrote 0x02 = some (.cmdGetFirmwareVersion wc) ∧ read 0x03 = some (.cmdGetFirmwareVersion rc) ∧
    wrote 0x04 = some (.cmdGetGeneralStatus wc) ∧ read 0x05 = some (.cmdGetGeneralStatus rc) ∧
    wrote 0x06 = some (.cmdReadRegister wc) ∧ read 0x07 = some (.cmdReadRegister rc) ∧
    wrote 0x08 = some (.cmdWriteRegister wc) ∧ read 0x09 = some (.cmdWriteRegister rc) ∧
    wrote 0x0C = some (.cmdReadGPIO wc) ∧ read 0x0D = some (.cmdReadGPIO rc) ∧
    wrote 0x0E = some (.cmdWriteGPIO wc) ∧ read 0x0F = some (.cmdWriteGPIO rc) ∧
    wrote 0x10 = some (.cmdSetSerialBaudRate wc) ∧ read 0x11 = some (.cmdSetSerialBaudRate rc) ∧
    wrote 0x12 = some (.cmdSetParameters wc) ∧ read 0x13 = some (.cmdSetParameters rc) ∧
    wrote 0x14 = some (.cmdSAMConfiguration wc) ∧ read 0x15 = some (.cmdSAMConfiguration rc) ∧
    wrote 0x16 = some (.cmdPowerDown wc) ∧ read 0x17 = some (.cmdPowerDown rc) ∧
    wrote 0x32 = some (.cmdRFConfiguration wc) ∧ read 0x33 = some (.cmdRFConfiguration rc) := by decide
/-- Keys as rule R133 lists them. -/
theorem test_decode_initiator_commands :
    wrote 0x40 = some (.cmdInDataExchange wc) ∧ read 0x41 = some (.cmdInDataExchange rc) ∧
    wrote 0x42 = some (.cmdInCommunicateThru wc) ∧ read 0x43 = some (.cmdInCommunicateThru rc) ∧
    wrote 0x44 = some (.cmdInDeselect wc) ∧ read 0x45 = some (.cmdInDeselect rc) ∧
    wrote 0x46 = some (.cmdInJumpForPSL wc) ∧ read 0x47 = some (.cmdInJumpForPSL rc) ∧
    wrote 0x4A = some (.cmdInListPassiveTarget wc) ∧ read 0x4B = some (.cmdInListPassiveTarget rc) ∧
    wrote 0x4E = some (.cmdInPSL wc) ∧ read 0x4F = some (.cmdInPSL rc) ∧
    wrote 0x50 = some (.cmdInATR wc) ∧ read 0x51 = some (.cmdInATR rc) ∧
    wrote 0x52 = some (.cmdInRelease wc) ∧ read 0x53 = some (.cmdInRelease rc) ∧
    wrote 0x54 = some (.cmdInSelect wc) ∧ read 0x55 = some (.cmdInSelect rc) ∧
    wrote 0x56 = some (.cmdInJumpForDEP wc) ∧ read 0x57 = some (.cmdInJumpForDEP rc) ∧
    wrote 0x58 = some (.cmdRFRegulationTest wc) ∧ read 0x59 = some (.cmdRFRegulationTest rc) ∧
    wrote 0x60 = some (.cmdInAutoPoll wc) ∧ read 0x61 = some (.cmdInAutoPoll rc) := by decide
/-- Keys as rule R133 lists them. -/
theorem test_decode_target_commands :
    wrote 0x86 = some (.cmdTgGetData wc) ∧ read 0x87 = some (.cmdTgGetData rc) ∧
    wrote 0x88 = some (.cmdTgGetInitiatorCommand wc) ∧ read 0x89 = some (.cmdTgGetInitiatorCommand rc) ∧
    wrote 0x8A = some (.cmdTgGetTargetStatus wc) ∧ read 0x8B = some (.cmdTgGetTargetStatus rc) ∧
    wrote 0x8C = some (.cmdTgInitAsTarget wc) ∧ read 0x8D = some (.cmdTgInitAsTarget rc) ∧
    wrote 0x8E = some (.cmdTgSetData wc) ∧ read 0x8F = some (.cmdTgSetData rc) ∧
    wrote 0x90 = some (.cmdTgResponseToInitiator wc) ∧ read 0x91 = some (.cmdTgResponseToInitiator rc) ∧
    wrote 0x92 = some (.cmdTgSetGeneralBytes wc) ∧ read 0x93 = some (.cmdTgSetGeneralBytes rc) ∧
    wrote 0x94 = some (.cmdTgSetMetaData wc) ∧ read 0x95 = some (.cmdTgSetMetaData rc) := by decide
/-- Rule R134: opcode `00` of a response is no key; an odd key has no row (V44, V64). -/
theorem test_decode_unknown_commands :
    read 0x00 = some (.cmdUnknown 0x00 rc) ∧ wrote 0x03 = some (.cmdUnknown 0x03 wc) ∧
    read 0xFF = some (.cmdUnknown 0xFF rc) := by decide
theorem test_decode_table_words :
    decodeTableWord 8 0x03 = some (.opDataRead ⟨0#6, [], [], ⟨0⟩, ⟨0⟩⟩) ∧
    decodeTableWord 8 0x4A = some (.cmdInListPassiveTarget bareCommand) ∧
    decodeTableWord 48 0x00FF00FF0000 = some (.ackRead []) := by decide
theorem test_fetch_word_runs_row :
    (outNext (step (State.reset.withFetchWord 8 0x01))).map State.state = some (.classified .writingData) ∧
    stepEmits (State.reset.withFetchWord 8 0x02) =
      some (.writingData, ⟨.bytes [], some (.name "GetFirmwareVersion")⟩) ∧
    stepEmits (State.reset.withFetchWord 48 0x00FF00FF0000) = some (.readingData, ⟨.ack, none⟩) := by decide

/-! ## The events -/

/-- V1 to V11. -/
theorem test_first_groups :
    regsAfter (.byteGroup (grp [0x02] [0x11])) (st .awaitingOperationByte []) =
      some ⟨.classified .readingStatus, [], some t5, some t2⟩ ∧
    regsAfter (.byteGroup (grp [0x03] [0x11])) (st .awaitingOperationByte []) =
      some ⟨.classified .readingData, [], some t5, some t2⟩ ∧
    regsAfter (.byteGroup (grp [0x01] [0x11])) (st .awaitingOperationByte []) =
      some ⟨.classified .writingData, [], some t5, some t2⟩ ∧
    regsAfter (.byteGroup (grp [0x00] [0x11])) (st .awaitingOperationByte []) =
      some ⟨.classified .rawCapture, [0x00], some t5, some t2⟩ ∧
    regsAfter (.byteGroup (grp [0xFE] [0x11])) (st .awaitingOperationByte []) =
      some ⟨.classified .readingStatus, [], some t5, some t2⟩ ∧
    regsAfter (.byteGroup (grp [0xFF] [0x11])) (st .awaitingOperationByte []) =
      some ⟨.classified .readingData, [], some t5, some t2⟩ ∧
    regsAfter (.byteGroup (grp [0x05] [0x11])) (st .awaitingOperationByte []) =
      some ⟨.classified .writingData, [], some t5, some t2⟩ ∧
    regsAfter (.byteGroup (grp [0x04] [0x11])) (st .awaitingOperationByte []) =
      some ⟨.classified .rawCapture, [0x04], some t5, some t2⟩ ∧
    regsAfter (.byteGroup (grp [0xFC] [0x11])) (st .awaitingOperationByte []) =
      some ⟨.classified .rawCapture, [0xFC], some t5, some t2⟩ ∧
    regsAfter (.byteGroup (grp [0x03, 0xAA, 0xBB] [0x11])) (st .awaitingOperationByte []) =
      some ⟨.classified .readingData, [], some t5, some t2⟩ ∧
    regsAfter (.byteGroup (grp [0x00, 0x00, 0xFF] [0x11])) (st .awaitingOperationByte []) =
      some ⟨.classified .rawCapture, [0x00, 0x00, 0xFF], some t5, some t2⟩ := by decide
/-- V12, V18, P7. -/
theorem test_out_of_contract_groups :
    outRefusal (exec (.byteGroup (grp [] [0x03])) (st .awaitingOperationByte [])) = some .emptyFirstGroup ∧
    outRefusal (exec (.byteGroup (grp [0x01] [0xFF])) (st .idle [])) = some .byteGroupWhileIdle := by decide
/-- V13 to V17. -/
theorem test_later_groups :
    regsAfter (.byteGroup (grp [0xA1, 0xA2] [0xB1, 0xB2])) (st (.classified .readingStatus) [0x10]) =
      some ⟨.classified .readingStatus, [0x10, 0xB1, 0xB2], some t1, some t6⟩ ∧
    regsAfter (.byteGroup (grp [0xA1, 0xA2] [0xB1, 0xB2])) (st (.classified .readingData) [0x10]) =
      some ⟨.classified .readingData, [0x10, 0xB1, 0xB2], some t1, some t6⟩ ∧
    regsAfter (.byteGroup (grp [0xA1, 0xA2] [0xB1, 0xB2])) (st (.classified .writingData) [0x10]) =
      some ⟨.classified .writingData, [0x10, 0xA1, 0xA2], some t1, some t6⟩ ∧
    regsAfter (.byteGroup (grp [0xA1, 0xA2] [0xB1, 0xB2])) (st (.classified .rawCapture) [0x10]) =
      some ⟨.classified .rawCapture, [0x10, 0xA1, 0xA2], some t1, some t6⟩ ∧
    regsAfter (.byteGroup (grp [0xA1] [])) (st (.classified .readingData) [0x10]) =
      some ⟨.classified .readingData, [0x10], some t1, some t6⟩ := by decide
/-- V19, V20. -/
theorem test_enable :
    regsAfter .enable State.reset =
      some ⟨.awaitingOperationByte, [], none, none⟩ ∧
    regsAfter .enable (st (.classified .writingData) [0x00, 0x00, 0xFF]) =
      some ⟨.awaitingOperationByte, [], some t1, some t2⟩ ∧
    emitted .enable (st (.classified .writingData) [0x00, 0x00, 0xFF]) = none := by decide
/-- V21 to V25. -/
theorem test_disable :
    regsAfter .disable (st .awaitingOperationByte []) = some ⟨.idle, [], some t1, some t2⟩ ∧
    emitted .disable (st .idle []) = none ∧
    emitted .disable (st (.classified .readingStatus) [0x01]) = some (.readingStatus, ⟨.status 0x01, none⟩) ∧
    emitted .disable (st (.classified .readingData) []) = some (.readingData, raw []) ∧
    regsAfter .disable (st (.classified .readingData) []) = some ⟨.idle, [], some t1, some t2⟩ := by decide
/-- The times of a frame, one of them without a value (V25, P4). -/
theorem test_disable_times :
    ((outNext (exec .disable (st (.classified .rawCapture) [0x00, 0x00, 0xFF, 0xFF, 0x00, 0x00]))).bind State.output) =
      some ⟨.rawCapture, some t1, some t2, ⟨.nack, none⟩⟩ ∧
    ((outNext (exec .disable { st (.classified .rawCapture) [0x04] with tEnd := none })).bind State.output) =
      some ⟨.rawCapture, some t1, none, raw [0x04]⟩ := by decide
theorem test_operation_rows :
    regsAfter (.opStatusRead ⟨1#6, [0x07], [0x09], t5, t6⟩) (st .awaitingOperationByte []) =
      some ⟨.classified .readingStatus, [], some t5, some t2⟩ ∧
    regsAfter (.opDataRead ⟨1#6, [0x07], [0x09], t5, t6⟩) (st .awaitingOperationByte []) =
      some ⟨.classified .readingData, [], some t5, some t2⟩ ∧
    regsAfter (.opDataWrite ⟨1#6, [0x07], [0x09], t5, t6⟩) (st .awaitingOperationByte []) =
      some ⟨.classified .writingData, [], some t5, some t2⟩ ∧
    regsAfter (.opRaw ⟨1#6, [0x07], [0x09], t5, t6⟩) (st .awaitingOperationByte []) =
      some ⟨.classified .rawCapture, [0x04, 0x07], some t5, some t2⟩ := by decide

/-! ## The parser: one step of a `Disable`, row by row -/

/-- A step of `Disable` on a buffer in a state. -/
def disableStep (c : Classified) (b : List Byte) : Option (Classified × Fields) :=
  stepEmits (stE (.classified c) b [.disable])

/-- V26 to V30. -/
theorem test_parse_status :
    disableStep .readingStatus [0x01] =
      some (.readingStatus, ⟨.status 0x01, none⟩) ∧
    disableStep .readingStatus [0x00] =
      some (.readingStatus, ⟨.status 0x00, none⟩) ∧
    disableStep .readingStatus [0xFF] =
      some (.readingStatus, ⟨.status 0xFF, none⟩) ∧
    disableStep .readingStatus [] =
      some (.readingStatus, raw []) ∧
    disableStep .readingStatus [0x01, 0x00] =
      some (.readingStatus, raw [0x01, 0x00]) := by decide
/-- V31 to V39. -/
theorem test_parse_read_markers :
    disableStep .readingData [] =
      some (.readingData, raw []) ∧
    disableStep .readingData [0x00, 0x00, 0xFF, 0x00, 0xFF] =
      some (.readingData, raw [0x00, 0x00, 0xFF, 0x00, 0xFF]) ∧
    disableStep .readingData [0x00, 0x00, 0xFF, 0x00, 0xFF, 0x00] =
      some (.readingData, ⟨.ack, none⟩) ∧
    disableStep .readingData [0x00, 0x00, 0xFF, 0x00, 0xFF, 0x00, 0x00] =
      some (.readingData, ⟨.ack, none⟩) ∧
    disableStep .readingData [0x00, 0x00, 0xFF, 0x00, 0xFF, 0x00, 0xD5, 0x03] =
      some (.readingData, ⟨.ack, none⟩) ∧
    disableStep .readingData [0x00, 0x00, 0xFF, 0xFF, 0x00, 0x00] =
      some (.readingData, ⟨.nack, none⟩) ∧
    disableStep .readingData [0x00, 0x00, 0xFF, 0xFF, 0x00, 0x00, 0x12, 0x34] =
      some (.readingData, ⟨.nack, none⟩) ∧
    disableStep .readingData [0x01, 0x00, 0x00, 0xFF, 0x00, 0xFF, 0x00] =
      some (.readingData, raw [0x01, 0x00, 0x00, 0xFF, 0x00, 0xFF, 0x00]) ∧
    disableStep .readingData [0x00, 0x00, 0xFE, 0x00, 0xFF, 0x00] =
      some (.readingData, raw [0x00, 0x00, 0xFE, 0x00, 0xFF, 0x00]) := by decide
/-- V40 to V46 (names of the default table, rule R133). -/
theorem test_parse_responses :
    disableStep .readingData [0x00, 0x00, 0xFF, 0x06, 0xFA, 0xD5, 0x03, 0x32, 0x01, 0x06, 0x07, 0xE8, 0x00] =
      some (.readingData, ⟨.bytes [0x32, 0x01, 0x06, 0x07], some (.name "GetFirmwareVersion")⟩) ∧
    disableStep .readingData [0x00, 0x00, 0xFF, 0x02, 0xFE, 0xD5, 0x15, 0x16, 0x00] =
      some (.readingData, ⟨.bytes [], some (.name "SAMConfiguration")⟩) ∧
    disableStep .readingData [0x00, 0x00, 0xFF, 0x02, 0xFE, 0xD5, 0x15] =
      some (.readingData, ⟨.bytes [], some (.name "SAMConfiguration")⟩) ∧
    disableStep .readingData [0x00, 0x00, 0xFF, 0x02, 0xFE, 0xD5] =
      some (.readingData, raw [0x00, 0x00, 0xFF, 0x02, 0xFE, 0xD5]) ∧
    disableStep .readingData [0x00, 0x00, 0xFF, 0x03, 0xFD, 0xD5, 0x00, 0x11, 0x22] =
      some (.readingData, ⟨.bytes [0x11], some .unknown⟩) ∧
    disableStep .readingData [0x00, 0x00, 0xFF, 0x03, 0xFD, 0xD5, 0x04, 0x11, 0x22] =
      some (.readingData, ⟨.bytes [0x11], some .unknown⟩) ∧
    disableStep .readingData [0x00, 0x00, 0xFF, 0x03, 0xFD, 0xD5, 0xFF, 0x11, 0x22] =
      some (.readingData, ⟨.bytes [0x11], some .unknown⟩) := by decide
/-- V47 to V55. -/
theorem test_parse_response_lengths :
    disableStep .readingData [0x00, 0x00, 0xFF, 0x00, 0xFF, 0xD5, 0x03, 0x11, 0x22] =
      some (.readingData, ⟨.bytes [], some (.name "GetFirmwareVersion")⟩) ∧
    disableStep .readingData [0x00, 0x00, 0xFF, 0x01, 0xFF, 0xD5, 0x03, 0x11, 0x22] =
      some (.readingData, ⟨.bytes [], some (.name "GetFirmwareVersion")⟩) ∧
    disableStep .readingData [0x00, 0x00, 0xFF, 0x02, 0xFF, 0xD5, 0x03, 0x11, 0x22] =
      some (.readingData, ⟨.bytes [], some (.name "GetFirmwareVersion")⟩) ∧
    disableStep .readingData [0x00, 0x00, 0xFF, 0x03, 0xFF, 0xD5, 0x03, 0x11, 0x22] =
      some (.readingData, ⟨.bytes [0x11], some (.name "GetFirmwareVersion")⟩) ∧
    disableStep .readingData [0x00, 0x00, 0xFF, 0xFF, 0x01, 0xD5, 0x03, 0x11, 0x22, 0x33] =
      some (.readingData, ⟨.bytes [0x11, 0x22, 0x33], some (.name "GetFirmwareVersion")⟩) ∧
    disableStep .readingData [0x00, 0x00, 0xFF, 0x0A, 0xF6, 0xD5, 0x03, 0x11, 0x22, 0x33] =
      some (.readingData, ⟨.bytes [0x11, 0x22, 0x33], some (.name "GetFirmwareVersion")⟩) ∧
    disableStep .readingData [0x00, 0x00, 0xFF, 0x03, 0xFD, 0xD4, 0x02, 0x00, 0x2A] =
      some (.readingData, raw [0x00, 0x00, 0xFF, 0x03, 0xFD, 0xD4, 0x02, 0x00, 0x2A]) ∧
    disableStep .readingData [0x00, 0x00, 0xFF, 0x01, 0xFF, 0x7F, 0x81, 0x00] =
      some (.readingData, raw [0x00, 0x00, 0xFF, 0x01, 0xFF, 0x7F, 0x81, 0x00]) ∧
    disableStep .readingData [0x00, 0x00, 0xFF, 0xFF, 0xFF, 0x01, 0x02, 0xFD, 0xD5, 0x03] =
      some (.readingData, raw [0x00, 0x00, 0xFF, 0xFF, 0xFF, 0x01, 0x02, 0xFD, 0xD5, 0x03]) := by decide
/-- V56 to V67 (names of the default table, rule R133). -/
theorem test_parse_writes :
    disableStep .writingData [0x00, 0x00, 0xFF, 0x02, 0xFE, 0xD4, 0x02, 0x2A, 0x00] =
      some (.writingData, ⟨.bytes [], some (.name "GetFirmwareVersion")⟩) ∧
    disableStep .writingData [0x00, 0x00, 0xFF, 0x02, 0xFE, 0xD4, 0x02, 0x2A] =
      some (.writingData, raw [0x00, 0x00, 0xFF, 0x02, 0xFE, 0xD4, 0x02, 0x2A]) ∧
    disableStep .writingData [0x00, 0x00, 0xFF, 0x01, 0xFF, 0xD4, 0x02, 0x2A, 0x00] =
      some (.writingData, raw [0x00, 0x00, 0xFF, 0x01, 0xFF, 0xD4, 0x02, 0x2A, 0x00]) ∧
    disableStep .writingData [0x00, 0x00, 0xFF, 0x00, 0x00, 0xD4, 0x02, 0x2A, 0x00] =
      some (.writingData, raw [0x00, 0x00, 0xFF, 0x00, 0x00, 0xD4, 0x02, 0x2A, 0x00]) ∧
    disableStep .writingData [0x00, 0x00, 0xFF, 0x03, 0xFD, 0xD5, 0x02, 0x00, 0x2A] =
      some (.writingData, raw [0x00, 0x00, 0xFF, 0x03, 0xFD, 0xD5, 0x02, 0x00, 0x2A]) ∧
    disableStep .writingData [0xAA, 0xBB, 0xCC, 0x03, 0x00, 0xD4, 0x02, 0x00, 0x11] =
      some (.writingData, ⟨.bytes [0x00], some (.name "GetFirmwareVersion")⟩) ∧
    disableStep .writingData [0x00, 0x00, 0xFF, 0x05, 0xFB, 0xD4, 0x14, 0x01, 0x14, 0x01, 0x02, 0x00] =
      some (.writingData, ⟨.bytes [0x01, 0x14, 0x01], some (.name "SAMConfiguration")⟩) ∧
    disableStep .writingData [0x00, 0x00, 0xFF, 0x04, 0xFC, 0xD4, 0x4A, 0x01, 0x00, 0xE1, 0x00] =
      some (.writingData, ⟨.bytes [0x01, 0x00], some (.name "InListPassiveTarget")⟩) ∧
    disableStep .writingData [0x00, 0x00, 0xFF, 0x03, 0xFD, 0xD4, 0x03, 0x00, 0x29] =
      some (.writingData, ⟨.bytes [0x00], some .unknown⟩) ∧
    disableStep .writingData [0x00, 0x00, 0xFF, 0xFF, 0x01, 0xD4, 0x40, 0x01, 0x02] =
      some (.writingData, ⟨.bytes [0x01, 0x02], some (.name "InDataExchange")⟩) ∧
    disableStep .writingData [0x00, 0x00, 0xFF, 0x03, 0xFD, 0xD4, 0xFF, 0x00, 0x2A] =
      some (.writingData, ⟨.bytes [0x00], some .unknown⟩) ∧
    disableStep .writingData [0x00, 0x00, 0xFF, 0x00, 0xFF, 0x00] =
      some (.writingData, raw [0x00, 0x00, 0xFF, 0x00, 0xFF, 0x00]) := by decide
/-- V68 to V75. -/
theorem test_parse_raw :
    disableStep .rawCapture [0x00, 0x00, 0xFF, 0x00, 0xFF, 0x00] =
      some (.rawCapture, ⟨.ack, none⟩) ∧
    disableStep .rawCapture [0x00, 0x00, 0xFF, 0xFF, 0x00, 0x00] =
      some (.rawCapture, ⟨.nack, none⟩) ∧
    disableStep .rawCapture [0x00, 0x00, 0xFF, 0x00, 0xFF, 0x00, 0x00] =
      some (.rawCapture, raw [0x00, 0x00, 0xFF, 0x00, 0xFF, 0x00, 0x00]) ∧
    disableStep .rawCapture [0x00, 0x00, 0xFF, 0x00, 0xFF] =
      some (.rawCapture, raw [0x00, 0x00, 0xFF, 0x00, 0xFF]) ∧
    disableStep .rawCapture [0x00, 0x00, 0xFF, 0x02, 0xFE, 0xD4] =
      some (.rawCapture, raw [0x00, 0x00, 0xFF, 0x02, 0xFE, 0xD4]) ∧
    disableStep .rawCapture [0x00, 0x00, 0xFE, 0x00, 0xFF, 0x00] =
      some (.rawCapture, raw [0x00, 0x00, 0xFE, 0x00, 0xFF, 0x00]) ∧
    disableStep .rawCapture [0x00] =
      some (.rawCapture, raw [0x00]) ∧
    disableStep .rawCapture [0x00, 0x00, 0xFF, 0x03, 0xFD, 0xD4, 0x02, 0x00, 0x2A] =
      some (.rawCapture, raw [0x00, 0x00, 0xFF, 0x03, 0xFD, 0xD4, 0x02, 0x00, 0x2A]) := by decide
/-- V76 to V80 (names of the default table, rule R133). -/
theorem test_lookup :
    lookup defaultConfig 0x02 = .name "GetFirmwareVersion" ∧ lookup defaultConfig (-1) = .unknown ∧
    lookup defaultConfig 0x03 = .unknown ∧ lookup defaultConfig 0xFF = .unknown ∧
    lookup defaultConfig 0x4A = .name "InListPassiveTarget" := by decide
/-- V81 to V86. -/
theorem test_slice :
    let b : List Byte := [0x10, 0x11, 0x12, 0x13, 0x14, 0x15, 0x16, 0x17, 0x18, 0x19]
    slice b 7 5 = [] ∧ slice b 7 7 = [] ∧ slice b 7 8 = [0x17] ∧ slice b 7 10 = [0x17, 0x18, 0x19] ∧
    slice b 7 260 = [0x17, 0x18, 0x19] ∧ slice [0x10, 0x11, 0x12] 7 9 = [] := by decide
/-- A table with an entry that no row lists: the frame stays at its shape and the name is found (rule R131). -/
theorem test_unlisted_entry_is_found :
    stepEmits { stE (.classified .writingData) [0x00, 0x00, 0xFF, 0x02, 0xFE, 0xD4, 0x03, 0x2A, 0x00] [.disable] with
      config := { defaultConfig with commands := [(0x03, "Vendor")] } } =
      some (.writingData, ⟨.bytes [], some (.name "Vendor")⟩) := by decide
/-- The rows of the default table by name (rule R133). -/
theorem test_default_names :
    lookup defaultConfig 0x00 = .name "Diagnose" ∧
    lookup defaultConfig 0x02 = .name "GetFirmwareVersion" ∧
    lookup defaultConfig 0x04 = .name "GetGeneralStatus" ∧
    lookup defaultConfig 0x06 = .name "ReadRegister" ∧
    lookup defaultConfig 0x08 = .name "WriteRegister" ∧
    lookup defaultConfig 0x0C = .name "ReadGPIO" ∧
    lookup defaultConfig 0x0E = .name "WriteGPIO" ∧
    lookup defaultConfig 0x10 = .name "SetSerialBaudRate" ∧
    lookup defaultConfig 0x12 = .name "SetParameters" ∧
    lookup defaultConfig 0x14 = .name "SAMConfiguration" ∧
    lookup defaultConfig 0x16 = .name "PowerDown" ∧
    lookup defaultConfig 0x32 = .name "RFConfiguration" ∧
    lookup defaultConfig 0x40 = .name "InDataExchange" ∧
    lookup defaultConfig 0x42 = .name "InCommunicateThru" ∧
    lookup defaultConfig 0x44 = .name "InDeselect" ∧
    lookup defaultConfig 0x46 = .name "InJumpForPSL" ∧
    lookup defaultConfig 0x4A = .name "InListPassiveTarget" ∧
    lookup defaultConfig 0x4E = .name "InPSL" ∧
    lookup defaultConfig 0x50 = .name "InATR" ∧
    lookup defaultConfig 0x52 = .name "InRelease" ∧
    lookup defaultConfig 0x54 = .name "InSelect" ∧
    lookup defaultConfig 0x56 = .name "InJumpForDEP" ∧
    lookup defaultConfig 0x58 = .name "RFRegulationTest" ∧
    lookup defaultConfig 0x60 = .name "InAutoPoll" ∧
    lookup defaultConfig 0x86 = .name "TgGetData" ∧
    lookup defaultConfig 0x88 = .name "TgGetInitiatorCommand" ∧
    lookup defaultConfig 0x8A = .name "TgGetTargetStatus" ∧
    lookup defaultConfig 0x8C = .name "TgInitAsTarget" ∧
    lookup defaultConfig 0x8E = .name "TgSetData" ∧
    lookup defaultConfig 0x90 = .name "TgResponseToInitiator" ∧
    lookup defaultConfig 0x92 = .name "TgSetGeneralBytes" ∧
    lookup defaultConfig 0x94 = .name "TgSetMetaData" := by decide
/-- All parameters of rule R5, with two strings as the timestamps. -/
def textTimes : Parameters String :=
  { defaultConfig with timeOf := fun t => if t = t1 then "08:00" else "08:01" }
/-- Rule R5: the label and the sentinel as texts, the time as the host's. -/
theorem test_render :
    renderFrame textTimes ⟨.rawCapture, some t1, none, ⟨.bytes [], some .unknown⟩⟩ =
      ⟨"RawCapture", some "08:00", none, .bytes [], some "unknown"⟩ := by decide
/-- Rule R65; the second conjunct is the model's choice, log entry 22. -/
theorem test_trace_bgs :
    traceBgs t1 t2 [0x07, 0x08] [0xA7, 0xA8] =
      [.byteGroup ⟨[0x07], [0xA7], t1, t2⟩, .byteGroup ⟨[0x08], [0xA8], t1, t2⟩] ∧
    traceBgs t1 t2 [0x07, 0x08] [0xA7] = [.byteGroup ⟨[0x07], [0xA7], t1, t2⟩] := by decide
/-- Rule R65: the expansion of a status read. -/
theorem test_trace_shorthands :
    traceSt 0xFF t1 t2 0x01 = [.enable, .byteGroup ⟨[0x02], [0xFF], t1, t2⟩, .byteGroup ⟨[0xFF], [0x01], t1, t2⟩, .disable] ∧
    traceWr 0xFF t1 t2 [0x07] = [.enable, .byteGroup ⟨[0x01], [0xFF], t1, t2⟩, .byteGroup ⟨[0x07], [0xFF], t1, t2⟩, .disable] ∧
    traceRd 0xFF t1 t2 [0x07] = [.enable, .byteGroup ⟨[0x03], [0xFF], t1, t2⟩, .byteGroup ⟨[0xFF], [0x07], t1, t2⟩, .disable] := by
  decide

/-! ## Witnesses: states and operands that meet the hypotheses of each statement -/

def awaiting : State := st .awaitingOperationByte []

theorem witness_FirstGroupOfTypedCycleOnlyClassifies :
    awaiting.state = .awaitingOperationByte ∧
    (∃ g op rest, g = grp [0xFE] [] ∧ g.toChip = op :: rest ∧ op.toNat % 4 = 2) ∧
    (∃ g op rest, g = grp [0x03, 0x01] [] ∧ g.toChip = op :: rest ∧ op.toNat % 4 = 3) ∧
    (∃ g op rest, g = grp [0x01] [] ∧ g.toChip = op :: rest ∧ op.toNat % 4 = 1) :=
  ⟨rfl, ⟨_, _, _, rfl, rfl, rfl⟩, ⟨_, _, _, rfl, rfl, rfl⟩, ⟨_, _, _, rfl, rfl, rfl⟩⟩
theorem witness_FirstGroupOfRawCycleAppendsItsLane :
    awaiting.state = .awaitingOperationByte ∧ (grp [0xFC, 0x01] []).toChip = 0xFC :: [0x01] ∧
    (0xFC : Byte).toNat % 4 = 0 := by decide
theorem witness_ReadingAppendsFromChipLane :
    (st (.classified .readingStatus) []).state = .classified .readingStatus ∧
    (st (.classified .readingData) []).state = .classified .readingData := ⟨rfl, rfl⟩
theorem witness_WritingAppendsToChipLane :
    (st (.classified .writingData) []).state = .classified .writingData ∧
    (st (.classified .rawCapture) []).state = .classified .rawCapture := ⟨rfl, rfl⟩
theorem witness_OutOfContractGroupsAreRefused :
    (∃ s : State, s.state = .idle ∧ s.events = [.byteGroup (grp [0x01] [])]) ∧
    (∃ s : State, s.state = .awaitingOperationByte ∧ s.events = [.byteGroup (grp [] [0x01])]) :=
  ⟨⟨stE .idle [] [.byteGroup (grp [0x01] [])], rfl, rfl⟩,
   ⟨stE .awaitingOperationByte [] [.byteGroup (grp [] [0x01])], rfl, rfl⟩⟩
theorem witness_DisableOutsideClassifiedEmitsNothing :
    awaiting.state = .awaitingOperationByte ∧ State.reset.state = .idle := ⟨rfl, rfl⟩
theorem witness_DisableEmitsTheParsedFrame :
    (st (.classified .readingData) [0x01]).state = .classified .readingData ∧
    (st (.classified .readingData) [0x01]).config.shortD5 = .rawFallback := ⟨rfl, rfl⟩

/-- A state whose configuration makes the short response a fault. -/
def strict (b : List Byte) : State :=
  { st (.classified .readingData) b with config := { defaultConfig with shortD5 := .fault } }

theorem witness_ShortResponseFaultsWhereConfigured :
    (strict [0x00, 0x00, 0xFF, 0x02, 0xFE, 0xD5]).config.shortD5 = .fault ∧
    outFault (exec .disable (strict [0x00, 0x00, 0xFF, 0x02, 0xFE, 0xD5])) = some .shortResponse ∧
    outFault (exec .disable (strict [0x00, 0x00, 0xFF, 0x02, 0xFE, 0xD5, 0x03])) = none := by decide
theorem witness_StatusShapeIsExactlyOneByte :
    ([] : List Byte).length ≠ 1 ∧ ([0x01, 0x00] : List Byte).length ≠ 1 ∧
    Classified.rawCapture ≠ .readingStatus := by decide
theorem witness_ReadWithOtherDirectionIsRaw :
    (0x00 : Byte) ≠ 0xD5 ∧ ([0x00, 0xFE, 0x00] : List Byte) ≠ [0x00, 0xFF, 0x00] ∧
    ([0x00, 0xFE, 0x00] : List Byte) ≠ [0xFF, 0x00, 0x00] := by decide
theorem witness_WriteShapeGivesPayloadAndCommand :
    1 < (0x02 : Byte).toNat ∧ ([0x00, 0x00, 0xFF, 0x02, 0xFE, 0xD4, 0x02, 0x2A] : List Byte).length < 9 ∧
    (([0x00, 0x00, 0xFF, 0x01] : List Byte).getD 3 0).toNat ≤ 1 ∧
    ([0x00, 0x00, 0xFF, 0x02, 0xFE, 0xD5] : List Byte).getD 5 0 ≠ 0xD4 := by decide
theorem witness_ParserResultsAreLegal :
    parse defaultConfig .readingStatus [0x01, 0x02] = { data := .bytes [0x01, 0x02], cmd := none } := by decide
theorem witness_ResponseKeyDoesNotWrap :
    ∃ f : Carrier, f = .resp 0x02 0xFE [] ∧ (0x00 : Byte) = 0x00 ∧ (0x01 : Byte) ≠ 0x00 := ⟨_, rfl, rfl, by decide⟩
theorem witness_DefaultTableHasEvenKeysOnly : (0xFF : Byte).toNat % 2 = 1 ∧ (0x01 : Byte).toNat % 2 = 1 := by decide
theorem witness_RawRowsEmitTheWholeBuffer : State.reset.config.shortD5 = .rawFallback := rfl
theorem witness_NoEventNoChange : State.reset.events = [] := rfl

/-- A state with one event pending. -/
def pending : State := stE (.classified .readingStatus) [0x01] [.disable]

theorem witness_StepRunsTheDecodedRow :
    pending.events = .disable :: [] ∧ decode (fetchCode pending .disable) = .ok (.status 0x01) := by decide
theorem witness_RowByRowStepIsTheEvent : pending.events = .disable :: [] := rfl
theorem witness_CommandRowIsItsShape :
    namesUnlisted defaultConfig (.resp 0x02 0xFE 0x03 []) = false ∧
    namesUnlisted defaultConfig (.resp 0x02 0xFE 0x00 []) = false := by decide
theorem witness_StepStopsExactlyOutsideContract :
    inContract pending = true ∧ pending.config.shortD5 = .rawFallback ∧
    inContract (stE .idle [] [.byteGroup (grp [0x01] [])]) = false := by decide
/-- The clauses for the other value of U4: the six byte response read, and the buffer one byte longer. -/
theorem witness_StepStopsExactlyOutsideContract_strict :
    let s : State := { strict [0x00, 0x00, 0xFF, 0x02, 0xFE, 0xD5] with events := [.disable] }
    let s' : State := { strict [0x00, 0x00, 0xFF, 0x02, 0xFE, 0xD5, 0x03] with events := [.disable] }
    (inContract s = true ∧ s.config.shortD5 = .fault ∧ s.events = [.disable] ∧ isSixByteResponse .readingData s.buf) ∧
    (inContract s' = true ∧ s'.config.shortD5 = .fault ∧ ¬isSixByteResponse .readingData s'.buf) :=
  ⟨⟨rfl, rfl, rfl, rfl, 0x02, 0xFE, rfl⟩, rfl, rfl, fun h => by simp [isSixByteResponse, strict, st] at h⟩

/-- Steps that answer a next state, one for each kind of event and control state. -/
theorem witness_steps_answer_next :
    (∃ t, step pending = .next t) ∧ (∃ t, step (stE .idle [] [.enable]) = .next t) ∧
    (∃ t, step (stE .awaitingOperationByte [] [.byteGroup (grp [0x04] [])]) = .next t) ∧
    (∃ t, step (stE (.classified .rawCapture) [0x04] [.byteGroup (grp [0x07] [])]) = .next t) ∧
    (∃ t, step (stE .idle [] [.disable]) = .next t) ∧ (∃ t, step State.reset = .next t) :=
  ⟨⟨_, rfl⟩, ⟨_, rfl⟩, ⟨_, rfl⟩, ⟨_, rfl⟩, ⟨_, rfl⟩, ⟨_, rfl⟩⟩
theorem witness_StepKeepsConfiguration : ∃ t, step pending = .next t := ⟨_, rfl⟩
theorem witness_ControlStateFollowsItsPath : ∃ t, pending.events = .disable :: [] ∧ step pending = .next t :=
  ⟨_, rfl, rfl⟩
theorem witness_FramesLeaveOnlyAtClassifiedDisable :
    (∃ t, pending.events = .disable :: [] ∧ step pending = .next t) ∧
    (∃ t, step (stE (.classified .rawCapture) [0x04] [.byteGroup (grp [0x07] [])]) = .next t) :=
  ⟨⟨_, rfl, rfl⟩, ⟨_, rfl⟩⟩
theorem witness_StoresOnlyAtTheBufferEnd :
    let s := stE (.classified .rawCapture) [0x04] [.byteGroup (grp [0x07] [])]
    0 < s.storeAddr ∧ storedLane s (grp [0x07] []) = [0x07] ∧ ∃ t, step s = .next t := ⟨by decide, rfl, _, rfl⟩
theorem witness_TimesWrittenOnlyByByteGroups :
    ∃ t, step (stE .awaitingOperationByte [] [.byteGroup (grp [0x04] [])]) = .next t := ⟨_, rfl⟩

/-- A classified state that a run reaches, with a frame received, meets the invariant. -/
theorem witness_StepKeepsInvariant :
    Inv { stE (.classified .rawCapture) [0x04] [.disable] with
      frames := [⟨.readingStatus, some t1, none, ⟨.status 0x01, none⟩⟩] } ∧
    ∃ t, step { stE (.classified .rawCapture) [0x04] [.disable] with
      frames := [⟨.readingStatus, some t1, none, ⟨.status 0x01, none⟩⟩] } = .next t := by
  refine ⟨⟨fun h => absurd rfl (h .rawCapture), fun _ _ => rfl, fun _ => ⟨0x04, [], rfl, rfl⟩, ?_, by decide⟩, _, rfl⟩
  intro f h
  cases h
theorem witness_UnreadPartOfGroupIsInvisible :
    groupsAgree (.classified .readingData) (grp [0x01] [0x07]) ⟨[0x02, 0x03], [0x07], t1, t6⟩ ∧
    groupsAgree .awaitingOperationByte (grp [0x01, 0x07] [0x07]) ⟨[0xFD], [], t5, t2⟩ :=
  ⟨⟨rfl, rfl⟩, ⟨rfl, rfl, rfl⟩⟩
/-- Two namings of one state over Nat, and an inhabited type. -/
theorem witness_TimestampTypeIsAParameter :
    { State.reset with tStart := some t1 }.over Time.name =
      { State.reset with tStart := some t2 }.over (fun t => t.name - 1) ∧ Nonempty Nat := ⟨rfl, ⟨0⟩⟩
theorem witness_CycleIsDecodedOnItsOwn :
    ∃ (first : Group) (op : Byte) (tail : List Byte) (f : DecodedFrame),
      first.toChip = op :: tail ∧ Classified.readingStatus = opClass op ∧
      State.reset.config.shortD5 = .rawFallback ∧
      f = { label := .readingStatus, startTime := some first.ts,
            endTime := cycleEnd State.reset.tEnd [grp [0x00] [0x01]],
            fields := parse State.reset.config .readingStatus (cycleBuffer .readingStatus first [grp [0x00] [0x01]]) } ∧
      f.fields = ⟨.status 0x01, none⟩ :=
  ⟨grp [0x06] [0xAA], 0x06, [], _, rfl, rfl, rfl, rfl, rfl⟩
/-- A cycle whose bytes are the six byte response read, and one that reads nothing. -/
theorem witness_CycleUnderFaultingShortResponse :
    (grp [0x07] [0xAA]).toChip = 0x07 :: [] ∧ Classified.readingData = opClass 0x07 ∧ (strict []).config.shortD5 = .fault ∧
    isSixByteResponse .readingData
      (cycleBuffer .readingData (grp [0x07] [0xAA]) [grp [] [0x00, 0x00, 0xFF], grp [] [0x02, 0xFE, 0xD5]]) ∧
    ¬isSixByteResponse .readingData (cycleBuffer .readingData (grp [0x07] [0xAA]) []) :=
  ⟨rfl, rfl, rfl, ⟨rfl, 0x02, 0xFE, rfl⟩, fun h => by simp [isSixByteResponse, cycleBuffer, firstLane] at h⟩
theorem witness_DecodeOfEncode :
    (Instr.rawFallback .readingData [0x00]).wf = true ∧ (Instr.cmdUnknown 0x03 wc).wf = true ∧
    (Instr.cmdWrite 0x00 0x00 0xFF 0x02 0xFE 0x02 [0x2A, 0x00]).wf = true := by decide
theorem witness_EncodeOfDecode :
    decodeOperation (grp [0x01] []) = .ok (.opDataWrite ⟨0#6, [], [], t5, t6⟩) := by decide
theorem witness_DecodedInstructionsAreWellFormed :
    decode (.command .readingStatus [0x01]) = .ok (.status 0x01) := by decide
theorem witness_ShapeRowsExcludeEachOther :
    ∃ r ∈ frameRows, r.priority < 99 ∧ frameRowTakes r .readingData [0x00, 0x00, 0xFF, 0x02, 0xFE, 0xD5] = true :=
  ⟨⟨"RESP_SHORT", [.readingData], .exactly 6, 3, [0x00, 0x00, 0xFF, 0x00, 0x00, 0xD5],
     [0xFF, 0xFF, 0xFF, 0x00, 0x00, 0xFF], false⟩, by decide, by decide, by decide⟩
theorem witness_RenderingFollowsTheConfiguration :
    ∃ f g h k : DecodedFrame, (f.label = .readingData ∧ f.fields.cmd = some (.name "x")) ∧
      (g.label = .writingData ∧ g.fields.cmd = some .unknown) ∧ (h.label = .readingStatus ∧ h.fields.cmd = none) ∧
      k.label = .rawCapture :=
  ⟨⟨.readingData, none, none, ⟨.bytes [], some (.name "x")⟩⟩, ⟨.writingData, none, none, ⟨.bytes [], some .unknown⟩⟩,
   ⟨.readingStatus, none, none, ⟨.bytes [], none⟩⟩, ⟨.rawCapture, none, none, ⟨.bytes [], none⟩⟩,
   ⟨rfl, rfl⟩, ⟨rfl, rfl⟩, ⟨rfl, rfl⟩, rfl⟩

end Sys2Proof.Tests
end

section
/-! What a byte group does in a classified state (spec/40_accumulator.md, rules R87, R88). -/

namespace Sys2Proof.Machine

/-- An event that emits no frame leaves what the host has received as it was (rule R60). -/
theorem State.answer_none (s : State) : s.answer none = { s with output := none } := by
  simp only [State.answer, Option.toList_none, List.append_nil]

/-- A later byte group as one record update: the three fields it writes, every other field kept. -/
theorem accumulate_eq (c : Classified) (g : Group) (s : State) :
    accumulate c g s = { s with tEnd := some g.te, buf := s.buf ++ g.bytes (laneOf c), output := none } :=
  State.answer_none _

/-- In a classified state a byte group is never refused: it is accumulated in that state's lane. -/
theorem execByteGroup_of_classified {s : State} {c : Classified} (h : s.state = .classified c) (g : Group) :
    execByteGroup g s = .next (accumulate c g s) := by
  simp only [execByteGroup, h]

/-- The same for the instruction, with the whole next state written out. -/
theorem exec_byteGroup_of_classified {s : State} {c : Classified} (h : s.state = .classified c) (g : Group) :
    exec (.byteGroup g) s =
      .next { s with tEnd := some g.te, buf := s.buf ++ g.bytes (laneOf c), output := none } :=
  calc exec (.byteGroup g) s
    _ = execByteGroup g s := rfl
    _ = .next (accumulate c g s) := execByteGroup_of_classified h g
    _ = _ := congrArg _ (accumulate_eq c g s)

/-- Settles O6: the lane of both reading states is the from-chip one (rule R87). -/
theorem readingAppendsFromChipLane : Obligations.ReadingAppendsFromChipLane := by
  rintro s g (h | h)
  · exact exec_byteGroup_of_classified h g
  · exact exec_byteGroup_of_classified h g

/-- Settles O7: the lane of the writing and the raw state is the to-chip one (rule R88). -/
theorem writingAppendsToChipLane : Obligations.WritingAppendsToChipLane := by
  rintro s g (h | h)
  · exact exec_byteGroup_of_classified h g
  · exact exec_byteGroup_of_classified h g

end Sys2Proof.Machine
end

section
/-! What the parser answers, buffer by buffer (spec/41_parser.md, rules R101 to R108 and R111 to R114). -/

namespace Sys2Proof.Machine

/-- A status read is decided by the buffer's length alone (rule R102). -/
theorem parse_readingStatus_of_length_ne_one (c : Config) {b : List Byte} (h : b.length ≠ 1) :
    parse c .readingStatus b = rawFields b :=
  if_neg h

/-- In the three other states every shape takes six bytes or more (rules R103, R109, R111). -/
theorem parse_of_length_lt_six (c : Config) {st : Classified} {b : List Byte} (hst : st ≠ .readingStatus)
    (h : b.length < 6) : parse c st b = rawFields b := by
  cases st with
  | readingStatus => exact absurd rfl hst
  | readingData => exact if_neg fun hg => absurd hg.1 (by omega)
  | writingData => exact if_neg fun hg => absurd hg.1 (by omega)
  | rawCapture => exact if_neg fun hg => absurd hg.1 (by omega)

/-- Past the preamble, a read is decided by bytes 3 to 5 and, for a response, by whether a seventh byte follows
(rules R104 to R108). -/
theorem parse_readingData_of_preamble (c : Config) (b3 b4 b5 : Byte) (rest : List Byte) :
    parse c .readingData (preamble ++ b3 :: b4 :: b5 :: rest) =
      if [b3, b4, b5] = ackCode then { data := .ack, cmd := none }
      else if [b3, b4, b5] = nackCode then { data := .nack, cmd := none }
      else if b5 = respDirection ∧ rest ≠ [] then responseFields c (preamble ++ b3 :: b4 :: b5 :: rest)
      else rawFields (preamble ++ b3 :: b4 :: b5 :: rest) := by
  have hguard : 6 ≤ (preamble ++ b3 :: b4 :: b5 :: rest).length ∧ hasPreamble (preamble ++ b3 :: b4 :: b5 :: rest) :=
    ⟨by simp [preamble], rfl⟩
  have hack : hasAckCode (preamble ++ b3 :: b4 :: b5 :: rest) = ([b3, b4, b5] == ackCode) := rfl
  have hnack : hasNackCode (preamble ++ b3 :: b4 :: b5 :: rest) = ([b3, b4, b5] == nackCode) := rfl
  have hresp : hasRespDirection (preamble ++ b3 :: b4 :: b5 :: rest) = (b5 == respDirection) := rfl
  have hlen : 7 ≤ (preamble ++ b3 :: b4 :: b5 :: rest).length ↔ rest ≠ [] := by
    cases rest <;> simp [preamble]
  simp only [parse, if_pos hguard, markerOr, hack, hnack, hresp, hlen, beq_iff_eq, ite_and]

/-- The preamble and a code of three bytes are one buffer of six bytes, told by the tests of rule R111. -/
theorem eq_preamble_append_iff {b code : List Byte} (hcode : code.length = 3) :
    b = preamble ++ code ↔ (b.length = 6 ∧ hasPreamble b) ∧ ((b.drop 3).take 3 == code) = true := by
  simp only [hasPreamble, beq_iff_eq]
  constructor
  · rintro rfl
    simp [preamble, hcode]
  · rintro ⟨⟨hlen, hpre⟩, hdrop⟩
    have htake : (b.drop 3).take 3 = b.drop 3 := List.take_of_length_le (by simp [hlen])
    rw [← hpre, ← hdrop, htake, List.take_append_drop]

/-- Raw capture's guard and its two code tests are equalities with two buffers (rules R111 to R114). -/
theorem parse_rawCapture (c : Config) (b : List Byte) :
    parse c .rawCapture b =
      if b = preamble ++ ackCode then { data := .ack, cmd := none }
      else if b = preamble ++ nackCode then { data := .nack, cmd := none }
      else rawFields b := by
  have hack : b = preamble ++ ackCode ↔ (b.length = 6 ∧ hasPreamble b) ∧ hasAckCode b :=
    eq_preamble_append_iff rfl
  have hnack : b = preamble ++ nackCode ↔ (b.length = 6 ∧ hasPreamble b) ∧ hasNackCode b :=
    eq_preamble_append_iff rfl
  by_cases hguard : b.length = 6 ∧ hasPreamble b
  · simp only [parse, markerOr, hack, hnack, hguard, and_self, true_and, if_true]
  · simp only [parse, hack, hnack, hguard, false_and, if_false]

/-- Settles O19: the two buffers are the preamble followed by each code. -/
theorem rawCaptureRecognisesTwoBuffers : Obligations.RawCaptureRecognisesTwoBuffers :=
  parse_rawCapture

/-- Settles O12: `ReadingStatus` by the length, the other states because one byte is less than six. -/
theorem statusShapeIsExactlyOneByte : Obligations.StatusShapeIsExactlyOneByte := fun c _ =>
  ⟨rfl, fun _ hb => parse_readingStatus_of_length_ne_one c hb,
    fun _ hst => parse_of_length_lt_six c hst (by simp)⟩

/-- Settles O13: bytes 3 to 5 are the code, and the code is tested before anything after it. -/
theorem markersOnReadIgnoreTrailingBytes : Obligations.MarkersOnReadIgnoreTrailingBytes := fun c rest =>
  ⟨parse_readingData_of_preamble c 0x00 0xFF 0x00 rest, parse_readingData_of_preamble c 0xFF 0x00 0x00 rest⟩

/-- Settles O16: each test past the preamble fails by one hypothesis. -/
theorem readWithOtherDirectionIsRaw : Obligations.ReadWithOtherDirectionIsRaw := by
  intro c b3 b4 b5 rest hdir hack hnack
  calc parse c .readingData (preamble ++ b3 :: b4 :: b5 :: rest)
    _ = _ := parse_readingData_of_preamble c b3 b4 b5 rest
    _ = _ := if_neg hack
    _ = _ := if_neg hnack
    _ = rawFields (preamble ++ b3 :: b4 :: b5 :: rest) := if_neg fun h => hdir h.1

end Sys2Proof.Machine
end

section
/-! When the lookup answers a name and when the sentinel (spec/42_command_table.md, rules R130 and R132). -/

namespace Sys2Proof.Machine

/-- Outside the one-byte domain the table is not asked (rule R130). -/
theorem lookup_of_outside (c : Config) {k : Int} (hk : ¬(0 ≤ k ∧ k ≤ 255)) : lookup c k = .unknown :=
  if_neg hk

/-- Inside the domain, a key under which the table has a name (rule R130). -/
theorem lookup_of_entry {c : Config} {k : Int} {n : String} (hk : 0 ≤ k ∧ k ≤ 255)
    (hn : commandName c (BitVec.ofInt 8 k) = some n) : lookup c k = .name n := by
  simp only [lookup, if_pos hk, hn]

/-- Inside the domain, a key the table does not have (rule R130). -/
theorem lookup_of_absent {c : Config} {k : Int} (hk : 0 ≤ k ∧ k ≤ 255)
    (hn : commandName c (BitVec.ofInt 8 k) = none) : lookup c k = .unknown := by
  simp only [lookup, if_pos hk, hn]

/-- The fixed entry is found before the configured table is asked (rule R132). -/
theorem commandName_two (c : Config) : commandName c 0x02 = some "GetFirmwareVersion" :=
  if_pos rfl

/-- Settles O24: a key is outside the domain, in the table, or absent, and each case has one answer. -/
theorem lookupIsTotal : Obligations.LookupIsTotal := by
  intro c k
  by_cases hk : 0 ≤ k ∧ k ≤ 255
  · cases hn : commandName c (BitVec.ofInt 8 k) with
    | some n => simp [lookup_of_entry hk hn, hk]
    | none => simp [lookup_of_absent hk hn]
  · simp [lookup_of_outside c hk, ← and_assoc, hk]

/-- Settles O25: the lookup of 2 finds the fixed entry. -/
theorem firmwareVersionEntryIsFixed : Obligations.FirmwareVersionEntryIsFixed := fun c =>
  ⟨commandName_two c, lookup_of_entry (by decide) (commandName_two c)⟩

end Sys2Proof.Machine
end

section
/-! The four effects of the events as record updates, and what each event does, case by case
(spec/40_accumulator.md, rules R80 to R96). -/

namespace Sys2Proof.Machine

/-- The state in which a cycle opens (rule R80). -/
def openCycle (s : State) : State := { s with state := .awaitingOperationByte, buf := [], output := none }

/-- A first byte group as one record update (rules R82 to R86). -/
theorem firstGroup_eq (c : Classified) (g : Group) (s : State) :
    firstGroup c g s =
      { s with state := .classified c, tStart := some g.ts, buf := s.buf ++ firstLane c g, output := none } :=
  State.answer_none _

/-- The end of a cycle without a frame as one record update (rules R92, R93). -/
theorem endCycle_none (s : State) : endCycle none s = { s with state := .idle, buf := [], output := none } :=
  State.answer_none _

theorem exec_enable (s : State) : exec .enable s = .next (openCycle s) :=
  congrArg Host.Outcome.next (State.answer_none _)

theorem exec_byteGroup_of_idle {s : State} (hs : s.state = .idle) (g : Group) :
    exec (.byteGroup g) s = .refused .byteGroupWhileIdle := by
  simp only [exec, execByteGroup, hs]

theorem exec_byteGroup_of_empty {s : State} {g : Group} (hs : s.state = .awaitingOperationByte) (hg : g.toChip = []) :
    exec (.byteGroup g) s = .refused .emptyFirstGroup := by
  simp only [exec, execByteGroup, hs, hg]

theorem exec_byteGroup_of_awaiting {s : State} {g : Group} {op : Byte} {tail : List Byte}
    (hs : s.state = .awaitingOperationByte) (hg : g.toChip = op :: tail) :
    exec (.byteGroup g) s = .next (firstGroup (opClass op) g s) := by
  simp only [exec, execByteGroup, hs, hg]

/-- A later group, said with the effect it has. -/
theorem exec_byteGroup_accumulates {s : State} {c : Classified} (hs : s.state = .classified c) (g : Group) :
    exec (.byteGroup g) s = .next (accumulate c g s) :=
  execByteGroup_of_classified hs g

theorem exec_disable_of_not_classified {s : State} (hs : ∀ c, s.state ≠ .classified c) :
    exec .disable s = .next (endCycle none s) := by
  cases h : s.state with
  | idle => simp only [exec, execDisable, h]
  | awaitingOperationByte => simp only [exec, execDisable, h]
  | classified c => exact absurd h (hs c)

theorem exec_disable_of_classified {s : State} {c : Classified} (hs : s.state = .classified c) :
    exec .disable s =
      if shortFault s c s.buf then .fault .shortResponse else .next (emitFrame c (parse s.config c s.buf) s) := by
  simp only [exec, execDisable, hs]

/-- Everything an event can come to, with what has to hold for it: three refusals or faults, five next states. -/
inductive EventResult (s : State) : Event → Host.Outcome State Fault Refusal → Prop
  | enable : EventResult s .enable (.next (openCycle s))
  | groupWhileIdle (g : Group) (hs : s.state = .idle) :
      EventResult s (.byteGroup g) (.refused .byteGroupWhileIdle)
  | emptyGroup (g : Group) (hs : s.state = .awaitingOperationByte) (hg : g.toChip = []) :
      EventResult s (.byteGroup g) (.refused .emptyFirstGroup)
  | firstGroup (g : Group) (op : Byte) (tail : List Byte) (hs : s.state = .awaitingOperationByte)
      (hg : g.toChip = op :: tail) : EventResult s (.byteGroup g) (.next (firstGroup (opClass op) g s))
  | laterGroup (g : Group) (c : Classified) (hs : s.state = .classified c) :
      EventResult s (.byteGroup g) (.next (accumulate c g s))
  | quietDisable (hs : ∀ c, s.state ≠ .classified c) : EventResult s .disable (.next (endCycle none s))
  | shortResponse (c : Classified) (hs : s.state = .classified c) (hf : shortFault s c s.buf = true) :
      EventResult s .disable (.fault .shortResponse)
  | frame (c : Classified) (hs : s.state = .classified c) (hf : shortFault s c s.buf = false) :
      EventResult s .disable (.next (emitFrame c (parse s.config c s.buf) s))

/-- An event's own meaning has one of these results. -/
theorem exec_ofEvent_result (s : State) (e : Event) : EventResult s e (exec (.ofEvent e) s) := by
  cases e with
  | enable => exact exec_enable s ▸ .enable
  | byteGroup g =>
    cases hs : s.state with
    | idle => exact exec_byteGroup_of_idle hs g ▸ .groupWhileIdle g hs
    | awaitingOperationByte =>
      cases hg : g.toChip with
      | nil => exact exec_byteGroup_of_empty hs hg ▸ .emptyGroup g hs hg
      | cons op tail => exact exec_byteGroup_of_awaiting hs hg ▸ .firstGroup g op tail hs hg
    | classified c => exact exec_byteGroup_accumulates hs g ▸ .laterGroup g c hs
  | disable =>
    by_cases hs : ∃ c, s.state = .classified c
    · obtain ⟨c, hs⟩ := hs
      have h := exec_disable_of_classified hs
      cases hf : shortFault s c s.buf with
      | true => exact (h.trans (if_pos hf)) ▸ .shortResponse c hs hf
      | false => exact (h.trans (if_neg (by simp [hf]))) ▸ .frame c hs hf
    · have hs : ∀ c, s.state ≠ .classified c := fun c h => hs ⟨c, h⟩
      exact exec_disable_of_not_classified hs ▸ .quietDisable hs

end Sys2Proof.Machine
end

section
/-! The shapes of buffers: one relation for what the decoder and the parser make of a buffer (spec/41_parser.md,
rules R100 to R116). -/

namespace Sys2Proof.Machine

/-- In state `st` the buffer `b` has the shape of the `frame` row `i`, and `f` are its fields: one constructor per row.
The fallback takes what no other row takes (rule R101). -/
inductive Shape (cfg : Config) : Classified → List Byte → Instr → Fields → Prop
  | status (v : Byte) : Shape cfg .readingStatus [v] (.status v) { data := .status v, cmd := none }
  | ackRead (rest : List Byte) :
      Shape cfg .readingData (preamble ++ ackCode ++ rest) (.ackRead rest) { data := .ack, cmd := none }
  | nackRead (rest : List Byte) :
      Shape cfg .readingData (preamble ++ nackCode ++ rest) (.nackRead rest) { data := .nack, cmd := none }
  | resp (len lcs pd0 : Byte) (rest : List Byte) :
      Shape cfg .readingData (carrierBytes (.resp len lcs rest) pd0) (.resp len lcs pd0 rest)
        (commandFields (.resp len lcs rest) pd0 (lookup cfg (carrierKey (.resp len lcs rest) pd0)))
  | respShort (len lcs : Byte) :
      Shape cfg .readingData (preamble ++ [len, lcs, respDirection]) (.respShort len lcs)
        (rawFields (preamble ++ [len, lcs, respDirection]))
  | cmdWrite (b0 b1 b2 len lcs pd0 : Byte) (rest : List Byte) (hw : (Carrier.write b0 b1 b2 len lcs rest).wf = true) :
      Shape cfg .writingData (carrierBytes (.write b0 b1 b2 len lcs rest) pd0) (.cmdWrite b0 b1 b2 len lcs pd0 rest)
        (commandFields (.write b0 b1 b2 len lcs rest) pd0 (lookup cfg (carrierKey (.write b0 b1 b2 len lcs rest) pd0)))
  | ackRaw : Shape cfg .rawCapture (preamble ++ ackCode) .ackRaw { data := .ack, cmd := none }
  | nackRaw : Shape cfg .rawCapture (preamble ++ nackCode) .nackRaw { data := .nack, cmd := none }
  | rawFallback (st : Classified) (b : List Byte) (h : rowTakes st b = false) :
      Shape cfg st b (.rawFallback st b) (rawFields b)

/-- A well-formed written carrier holds two bytes past its opcode, and its length is above one (rule R109). -/
theorem write_wf_iff {b0 b1 b2 len lcs : Byte} {rest : List Byte} :
    (Carrier.write b0 b1 b2 len lcs rest).wf = true ↔ 1 < zext len ∧ ∃ b7 b8 tail, rest = b7 :: b8 :: tail := by
  simp only [Carrier.wf, Bool.and_eq_true, decide_eq_true_eq, and_congr_right_iff]
  intro _
  match rest with
  | [] => simp
  | [_] => simp
  | _ :: _ :: _ => simp

/-- Shape 2's guard says how a buffer begins (rule R103). -/
theorem shape2_iff {b : List Byte} :
    shape2 b = true ↔ ∃ b3 b4 b5 rest, b = preamble ++ b3 :: b4 :: b5 :: rest := by
  constructor
  · intro h
    obtain ⟨hlen, hpre⟩ : 6 ≤ b.length ∧ b.take 3 = preamble := by simpa [shape2, hasPreamble] using h
    match hb : b.drop 3 with
    | b3 :: b4 :: b5 :: rest => exact ⟨b3, b4, b5, rest, by rw [← hpre, ← hb, List.take_append_drop]⟩
    | [] | [_] | [_, _] =>
      have := congrArg List.length hb
      simp at this
      omega
  · rintro ⟨b3, b4, b5, rest, rfl⟩
    simp [shape2, hasPreamble, preamble]

/-- Shape 3's guard says what a buffer carries (rule R109). -/
theorem shape3_iff {b : List Byte} :
    shape3 b = true ↔ ∃ b0 b1 b2 len lcs pd0 rest, (Carrier.write b0 b1 b2 len lcs rest).wf = true ∧
      b = carrierBytes (.write b0 b1 b2 len lcs rest) pd0 := by
  constructor
  · intro h
    match b with
    | b0 :: b1 :: b2 :: len :: lcs :: b5 :: pd0 :: b7 :: b8 :: tail =>
      obtain ⟨hlen, rfl⟩ : 1 < zext len ∧ b5 = cmdDirection := by
        simpa [shape3, lengthAboveOne, hasCmdDirection, byteAt] using h
      exact ⟨b0, b1, b2, len, lcs, pd0, b7 :: b8 :: tail, write_wf_iff.mpr ⟨hlen, b7, b8, tail, rfl⟩, rfl⟩
    | [] | [_] | [_, _] | [_, _, _] | [_, _, _, _] | [_, _, _, _, _] | [_, _, _, _, _, _] | [_, _, _, _, _, _, _]
    | [_, _, _, _, _, _, _, _] => simp [shape3] at h
  · rintro ⟨b0, b1, b2, len, lcs, pd0, rest, hw, rfl⟩
    obtain ⟨hlen, b7, b8, tail, rfl⟩ := write_wf_iff.mp hw
    simp [shape3, carrierBytes, lengthAboveOne, hasCmdDirection, byteAt, hlen]

end Sys2Proof.Machine
end

section
/-! The statements about the three events and the four operation byte rows (spec/40_accumulator.md). -/

namespace Sys2Proof.Machine

/-- Settles O1: the equation of `Enable`. -/
theorem enableOpensCycle : Obligations.EnableOpensCycle := exec_enable

/-- Settles O2: the state in which a cycle opens has neither. -/
theorem enableForgetsStateAndBuffer : Obligations.EnableForgetsStateAndBuffer := fun s _ _ =>
  ⟨(exec_enable _).trans (exec_enable s).symm, openCycle s, exec_enable s, rfl, rfl, rfl⟩

/-- A first group of a typed class stores nothing (rules R83 to R85). -/
theorem firstGroup_of_typed {c : Classified} (hc : c ≠ .rawCapture) (g : Group) (s : State) :
    firstGroup c g s = { s with state := .classified c, tStart := some g.ts, output := none } := by
  have hlane : firstLane c g = [] := by
    cases c with
    | rawCapture => exact absurd rfl hc
    | _ => rfl
  rw [firstGroup_eq, hlane, List.append_nil]

/-- Settles O56: the class bits are the byte modulo four. -/
theorem operationByteClasses : Obligations.OperationByteClasses := by
  intro op
  rw [← opClassBits_eq_mod]
  rcases opClass_of_bits op with ⟨hb, hc⟩ | ⟨hb, hc⟩ | ⟨hb, hc⟩ | ⟨hb, hc⟩ <;> rw [hb, hc] <;> rfl

/-- Settles O3: the residue names the class, and no typed class stores a byte. -/
theorem firstGroupOfTypedCycleOnlyClassifies : Obligations.FirstGroupOfTypedCycleOnlyClassifies := by
  intro s g op rest hs hg
  have hexec := exec_byteGroup_of_awaiting hs hg
  rw [operationByteClasses op] at hexec
  refine ⟨fun hop => ?_, fun hop => ?_, fun hop => ?_⟩
  all_goals
    simp only [hop, reduceIte, Nat.reduceEqDiff] at hexec
    rw [hexec, firstGroup_of_typed (by decide)]

/-- Settles O4: the raw class stores the group's whole to-chip lane. -/
theorem firstGroupOfRawCycleAppendsItsLane : Obligations.FirstGroupOfRawCycleAppendsItsLane := by
  intro s g op rest hs hg hop
  have hclass : opClass op = .rawCapture := by
    rw [operationByteClasses op, hop]; rfl
  rw [exec_byteGroup_of_awaiting hs hg, hclass, firstGroup_eq]
  rfl

/-- The operation byte of the raw class is its ignored bits times four. -/
theorem opByte_raw (hi : BitVec 6) : opByte hi 0b00#2 = BitVec.ofNat 8 (hi.toNat * 4) := by
  revert hi; decide

/-- Settles O5: three typed rows, and the raw one, whose lane begins with its operation byte. -/
theorem operationRowsClassify : Obligations.OperationRowsClassify := by
  intro s o
  refine ⟨congrArg _ (firstGroup_of_typed (by decide) _ s), congrArg _ (firstGroup_of_typed (by decide) _ s),
    congrArg _ (firstGroup_of_typed (by decide) _ s), ?_⟩
  rw [← opByte_raw]
  exact congrArg _ (firstGroup_eq .rawCapture _ s)

/-- Settles O9: neither of the two states is classified. -/
theorem disableOutsideClassifiedEmitsNothing : Obligations.DisableOutsideClassifiedEmitsNothing := by
  intro s hs
  rw [exec_disable_of_not_classified (by rcases hs with hs | hs <;> simp [hs]), endCycle_none]

/-- Settles O10: under the default of U4 nothing faults. -/
theorem disableEmitsTheParsedFrame : Obligations.DisableEmitsTheParsedFrame := by
  intro s c hs hd
  rw [exec_disable_of_classified hs, shortFault_default s c s.buf hd]
  rfl

/-- Settles O11: the row faults by its definition, and a `Disable` where the parser's test for the buffer holds. -/
theorem shortResponseFaultsWhereConfigured : Obligations.ShortResponseFaultsWhereConfigured := by
  intro s hd
  refine ⟨fun len lcs => ?_, fun len lcs hs hb => ?_, fun r h => ?_⟩
  · simp only [exec, execRespShort, hd]
  · rw [exec_disable_of_classified hs, if_pos ((shortFault_iff s _ _ hd).mpr ⟨rfl, len, lcs, hb⟩)]
  · have hresult : EventResult s .disable (.fault r) := h ▸ exec_ofEvent_result s .disable
    cases hresult with
    | shortResponse c hs hf =>
      obtain ⟨rfl, hb⟩ := (shortFault_iff s c s.buf hd).mp hf
      exact ⟨hs, hb⟩

end Sys2Proof.Machine
end

section
/-! Every buffer has one shape, which is the decoder's row and the parser's fields. -/

namespace Sys2Proof.Machine

/-- In raw capture two buffers have a row of their own (rules R111 to R113). -/
theorem rowTakes_rawCapture_iff {b : List Byte} :
    rowTakes .rawCapture b = true ↔ b = preamble ++ ackCode ∨ b = preamble ++ nackCode := by
  rw [eq_preamble_append_iff (code := ackCode) rfl, eq_preamble_append_iff (code := nackCode) rfl, ← and_or_left]
  simp [rowTakes, shape4, hasAckCode, hasNackCode]

/-- Past the preamble, bytes 3 to 5 decide whether a read has a row (rules R104 to R108). -/
theorem rowTakes_preamble (b3 b4 b5 : Byte) (rest : List Byte) :
    rowTakes .readingData (preamble ++ b3 :: b4 :: b5 :: rest) =
      ([b3, b4, b5] == ackCode || [b3, b4, b5] == nackCode || b5 == respDirection) := by
  have h : shape2 (preamble ++ b3 :: b4 :: b5 :: rest) = true := shape2_iff.mpr ⟨_, _, _, _, rfl⟩
  rw [rowTakes, h, Bool.true_and]
  rfl

theorem rowTakes_rawCapture_eq_false_iff {b : List Byte} :
    rowTakes .rawCapture b = false ↔ b ≠ preamble ++ ackCode ∧ b ≠ preamble ++ nackCode := by
  rw [← Bool.not_eq_true, rowTakes_rawCapture_iff, not_or]

theorem rowTakes_preamble_eq_false_iff {b3 b4 b5 : Byte} {rest : List Byte} :
    rowTakes .readingData (preamble ++ b3 :: b4 :: b5 :: rest) = false ↔
      ([b3, b4, b5] ≠ ackCode ∧ [b3, b4, b5] ≠ nackCode) ∧ b5 ≠ respDirection := by
  rw [rowTakes_preamble]
  simp only [Bool.or_eq_false_iff, beq_eq_false_iff_ne]

/-- Every buffer has a shape in every state. -/
theorem exists_shape (cfg : Config) (st : Classified) (b : List Byte) : ∃ i f, Shape cfg st b i f := by
  by_cases h : rowTakes st b = true
  · cases st with
    | readingStatus =>
      obtain ⟨v, rfl⟩ := List.length_eq_one_iff.mp (by simpa [rowTakes, shape1] using h)
      exact ⟨_, _, .status v⟩
    | readingData =>
      have hpre : shape2 b = true := Bool.and_elim_left h
      obtain ⟨b3, b4, b5, rest, rfl⟩ := shape2_iff.mp hpre
      rw [rowTakes_preamble] at h
      simp only [Bool.or_eq_true, beq_iff_eq] at h
      rcases h with (h | h) | rfl
      · cases h
        exact ⟨_, _, .ackRead rest⟩
      · cases h
        exact ⟨_, _, .nackRead rest⟩
      · cases rest with
        | nil => exact ⟨_, _, .respShort b3 b4⟩
        | cons pd0 tail => exact ⟨_, _, .resp b3 b4 pd0 tail⟩
    | writingData =>
      obtain ⟨b0, b1, b2, len, lcs, pd0, rest, hw, rfl⟩ := shape3_iff.mp h
      exact ⟨_, _, .cmdWrite b0 b1 b2 len lcs pd0 rest hw⟩
    | rawCapture =>
      rcases rowTakes_rawCapture_iff.mp h with rfl | rfl
      · exact ⟨_, _, .ackRaw⟩
      · exact ⟨_, _, .nackRaw⟩
  · exact ⟨_, _, .rawFallback st b (by simpa using h)⟩

/-- A buffer that no row takes decodes to the fallback (rule R101). -/
theorem decodeFrame_of_not_rowTakes {st : Classified} {b : List Byte} (h : rowTakes st b = false) :
    decodeFrame st b = .rawFallback st b := by
  cases st with
  | readingStatus =>
    rw [decodeFrame]
    unfold decodeStatus
    split
    · cases h
    · rfl
  | readingData =>
    rw [decodeFrame]
    unfold decodeData
    split
    · next b0 b1 b2 b3 b4 b5 rest =>
      split
      · next hpre =>
        obtain ⟨rfl, rfl, rfl⟩ : b0 = 0x00 ∧ b1 = 0x00 ∧ b2 = 0xFF := by simpa [preamble] using hpre
        obtain ⟨⟨hack, hnack⟩, hdir⟩ := rowTakes_preamble_eq_false_iff.mp h
        unfold decodeDataBody
        rw [if_neg hack, if_neg hnack, if_neg hdir]
        rfl
      · rfl
    · rfl
  | writingData =>
    rw [decodeFrame]
    unfold decodeWrite
    split
    · next b0 b1 b2 b3 b4 b5 b6 b7 b8 rest =>
      refine if_neg fun ⟨hlen, hdir⟩ => ?_
      have : shape3 (b0 :: b1 :: b2 :: b3 :: b4 :: b5 :: b6 :: b7 :: b8 :: rest) = true :=
        shape3_iff.mpr
          ⟨b0, b1, b2, b3, b4, b6, b7 :: b8 :: rest, write_wf_iff.mpr ⟨hlen, _, _, _, rfl⟩, by rw [hdir]; rfl⟩
      exact absurd this (by simpa [rowTakes] using h)
    · rfl
  | rawCapture =>
    obtain ⟨hack, hnack⟩ := rowTakes_rawCapture_eq_false_iff.mp h
    rw [decodeFrame, decodeRaw, if_neg hack, if_neg hnack]

/-- A buffer that no row takes is parsed to the whole buffer (rules R101, R108, R114). -/
theorem parse_of_not_rowTakes (cfg : Config) {st : Classified} {b : List Byte} (h : rowTakes st b = false) :
    parse cfg st b = rawFields b := by
  cases st with
  | readingStatus => exact parse_readingStatus_of_length_ne_one cfg (by simpa [rowTakes, shape1] using h)
  | readingData =>
    by_cases hpre : shape2 b = true
    · obtain ⟨b3, b4, b5, rest, rfl⟩ := shape2_iff.mp hpre
      obtain ⟨⟨hack, hnack⟩, hdir⟩ := rowTakes_preamble_eq_false_iff.mp h
      rw [parse_readingData_of_preamble, if_neg hack, if_neg hnack, if_neg fun h => hdir h.1]
    · exact if_neg (by simpa [shape2] using hpre)
  | writingData => exact if_neg (by simpa [rowTakes, shape3, lengthAboveOne, and_assoc] using h)
  | rawCapture =>
    obtain ⟨hack, hnack⟩ := rowTakes_rawCapture_eq_false_iff.mp h
    rw [parse_rawCapture, if_neg hack, if_neg hnack]

/-- A response's code is neither marker's, whose last byte is `00` (rule R56). -/
theorem response_not_marker (len lcs : Byte) :
    [len, lcs, respDirection] ≠ ackCode ∧ [len, lcs, respDirection] ≠ nackCode := by
  simp [ackCode, nackCode, respDirection]

/-- A read of a response's shape (rule R106). -/
theorem parse_response (cfg : Config) (len lcs pd0 : Byte) (rest : List Byte) :
    parse cfg .readingData (carrierBytes (.resp len lcs rest) pd0) =
      commandFields (.resp len lcs rest) pd0 (lookup cfg (carrierKey (.resp len lcs rest) pd0)) := by
  obtain ⟨hack, hnack⟩ := response_not_marker len lcs
  calc parse cfg .readingData (preamble ++ len :: lcs :: respDirection :: pd0 :: rest)
    _ = _ := parse_readingData_of_preamble cfg len lcs respDirection (pd0 :: rest)
    _ = _ := if_neg hack
    _ = _ := if_neg hnack
    _ = _ := if_pos ⟨rfl, List.cons_ne_nil _ _⟩

/-- A read of a response's shape without an opcode (rule R107). -/
theorem parse_shortResponse (cfg : Config) (len lcs : Byte) :
    parse cfg .readingData (preamble ++ [len, lcs, respDirection]) =
      rawFields (preamble ++ [len, lcs, respDirection]) := by
  obtain ⟨hack, hnack⟩ := response_not_marker len lcs
  rw [parse_readingData_of_preamble, if_neg hack, if_neg hnack, if_neg fun h => h.2 rfl]

/-- A written command (rule R109). -/
theorem parse_written (cfg : Config) {b0 b1 b2 len lcs : Byte} {rest : List Byte}
    (hw : (Carrier.write b0 b1 b2 len lcs rest).wf = true) (pd0 : Byte) :
    parse cfg .writingData (carrierBytes (.write b0 b1 b2 len lcs rest) pd0) =
      commandFields (.write b0 b1 b2 len lcs rest) pd0
        (lookup cfg (carrierKey (.write b0 b1 b2 len lcs rest) pd0)) := by
  obtain ⟨hlen, b7, b8, tail, rfl⟩ := write_wf_iff.mp hw
  exact if_pos ⟨by simp [carrierBytes], hlen, rfl⟩

namespace Shape

variable {cfg : Config} {st : Classified} {b : List Byte} {i : Instr} {f : Fields}

/-- The decoder gives the row of the buffer's shape. -/
theorem decodeFrame_eq (h : Shape cfg st b i f) : decodeFrame st b = i := by
  cases h with
  | status v => rfl
  | ackRead rest => rfl
  | nackRead rest => rfl
  | resp len lcs pd0 rest =>
    simp [carrierBytes, preamble, decodeFrame, decodeData, decodeDataBody, ackCode, nackCode, respDirection]
  | respShort len lcs =>
    simp [preamble, decodeFrame, decodeData, decodeDataBody, ackCode, nackCode, respDirection]
  | cmdWrite b0 b1 b2 len lcs pd0 rest hw =>
    obtain ⟨hlen, b7, b8, tail, rfl⟩ := write_wf_iff.mp hw
    exact if_pos ⟨hlen, rfl⟩
  | ackRaw => rfl
  | nackRaw => rfl
  | rawFallback st b h => exact decodeFrame_of_not_rowTakes h

/-- The parser gives its fields. -/
theorem parse_eq (h : Shape cfg st b i f) : parse cfg st b = f := by
  cases h with
  | status v => rfl
  | ackRead rest => exact (markersOnReadIgnoreTrailingBytes cfg rest).1
  | nackRead rest => exact (markersOnReadIgnoreTrailingBytes cfg rest).2
  | resp len lcs pd0 rest => exact parse_response cfg len lcs pd0 rest
  | respShort len lcs => exact parse_shortResponse cfg len lcs
  | cmdWrite b0 b1 b2 len lcs pd0 rest hw => exact parse_written cfg hw pd0
  | ackRaw => rfl
  | nackRaw => rfl
  | rawFallback st b h => exact parse_of_not_rowTakes cfg h

end Shape

/-- So the decoder's row and the parser's fields are those of one shape. -/
theorem shape_decodeFrame_parse (cfg : Config) (st : Classified) (b : List Byte) :
    Shape cfg st b (decodeFrame st b) (parse cfg st b) := by
  obtain ⟨i, f, h⟩ := exists_shape cfg st b
  rwa [h.decodeFrame_eq, h.parse_eq]

end Sys2Proof.Machine
end

section
/-! The step row by row and the events' own meanings are one (spec/30_encoding.md section 6; log entry 7). -/

namespace Sys2Proof.Machine

/-- A carrier read on to the row of its key is emitted with the lookup of that key, unless the table names a key that no
row lists (log entry 7). -/
theorem exec_commandRow {s : State} {f : Carrier} {pd0 : Byte}
    (h : isListed (carrierKey f pd0) = true ∨ lookup s.config (carrierKey f pd0) = .unknown) :
    exec (commandRow f pd0) s =
      .next (emitFrame (carrierLabel f) (commandFields f pd0 (lookup s.config (carrierKey f pd0))) s) := by
  unfold commandRow
  split
  · next r hfound =>
    obtain ⟨hmem, hkey⟩ := commandRows_find_some hfound
    rw [exec_of_mem_commandRows r hmem, emitCommand, hkey, carrierOpcode_of_key f pd0 r.1 hkey.symm]
  · next hnone =>
    have hunknown : lookup s.config (carrierKey f pd0) = .unknown :=
      h.resolve_left (by simp [(commandRows_find_none_iff _).mp hnone])
    rw [hunknown]
    rfl

/-- What `namesUnlisted` rules out, for a shape that looks a key up. -/
theorem listed_or_unknown {c : Config} {i : Instr} {k : Int} (hk : lookupKey i = some k)
    (h : namesUnlisted c i = false) : isListed k = true ∨ lookup c k = .unknown := by
  have h' : isListed k = false → lookup c k = .unknown := by simpa [namesUnlisted, hk] using h
  cases hl : isListed k with
  | true => exact .inl rfl
  | false => exact .inr (h' hl)

/-- Settles O38: a shape that looks a key up is emitted as the row of that key; every other instruction stays. -/
theorem commandRowIsItsShape : Obligations.CommandRowIsItsShape := by
  intro s i h
  cases i with
  | resp len lcs pd0 rest => exact exec_commandRow (listed_or_unknown rfl h)
  | cmdWrite b0 b1 b2 len lcs pd0 rest => exact exec_commandRow (listed_or_unknown rfl h)
  | _ => rfl

/-- The six byte response read is the one shape that can fault (rule R107). -/
theorem rowTakes_of_isShortResponse {st : Classified} {b : List Byte} (h : isShortResponse st b = true) :
    rowTakes st b = true := by
  obtain ⟨rfl, len, lcs, rfl⟩ := (isShortResponse_iff st b).mp h
  exact (rowTakes_preamble len lcs respDirection []).trans (by simp)

/-- A buffer that is no six byte response read does not fault. -/
theorem shortFault_of_not_short {s : State} {st : Classified} {b : List Byte} (h : isShortResponse st b = false) :
    shortFault s st b = false := by
  rw [shortFault, h, Bool.and_false]

/-- The row of a buffer's shape does what a `Disable` on the buffer does. -/
theorem Shape.exec_eq {s : State} {st : Classified} {b : List Byte} {i : Instr} {f : Fields}
    (h : Shape s.config st b i f) :
    exec i s = if shortFault s st b then .fault .shortResponse else .next (emitFrame st f s) := by
  have emits (hns : isShortResponse st b = false) (hx : exec i s = .next (emitFrame st f s)) :
      exec i s = if shortFault s st b then .fault .shortResponse else .next (emitFrame st f s) := by
    rw [hx, shortFault_of_not_short hns]; rfl
  cases h with
  | status v => exact emits rfl rfl
  | ackRead rest =>
    exact emits (by simp [isShortResponse, hasRespDirection, byteAt, preamble, ackCode, respDirection]) rfl
  | nackRead rest =>
    exact emits (by simp [isShortResponse, hasRespDirection, byteAt, preamble, nackCode, respDirection]) rfl
  | resp len lcs pd0 rest => exact emits (by simp [isShortResponse, carrierBytes, preamble]) rfl
  | respShort len lcs =>
    have hshort : isShortResponse .readingData (preamble ++ [len, lcs, respDirection]) = true := rfl
    rw [shortFault, hshort, Bool.and_true]
    cases hd : s.config.shortD5 <;> simp [exec, execRespShort, hd]
  | cmdWrite b0 b1 b2 len lcs pd0 rest hw => exact emits rfl rfl
  | ackRaw => exact emits rfl rfl
  | nackRaw => exact emits rfl rfl
  | rawFallback st b h =>
    exact emits (Bool.eq_false_iff.mpr fun hs => by simp [rowTakes_of_isShortResponse hs] at h) rfl

/-- Running the row a buffer decodes to is the `Disable` on that buffer. -/
theorem exec_decodeFrame {s : State} {c : Classified} (hs : s.state = .classified c) :
    exec (decodeFrame c s.buf) s = exec .disable s :=
  (shape_decodeFrame_parse s.config c s.buf).exec_eq.trans (exec_disable_of_classified hs).symm

/-- A first group decodes to the row of its operation byte, whose meaning is the first group's. -/
theorem decodeOperation_of_cons {g : Group} {op : Byte} {tail : List Byte} (hg : g.toChip = op :: tail) :
    ∃ i, decodeOperation g = .ok i ∧ encode i = .operation g ∧ i.wf = true ∧
      ∀ s, exec i s = .next (firstGroup (opClass op) g s) := by
  obtain ⟨o, cls, rfl, hop⟩ : ∃ o cls, g = opGroup o cls ∧ op = opByte o.hi cls := by
    refine ⟨⟨opIgnoredBits op, tail, g.fromChip, g.ts, g.te⟩, opClassBits op, ?_, (opByte_of_bits op).symm⟩
    rw [opGroup, opByte_of_bits, ← hg]
  rw [decodeOperation_opGroup, ← hop]
  have hcls : opClassBits op = cls := by rw [hop, opClassBits_opByte]
  rcases opClass_of_bits op with ⟨hb, hc⟩ | ⟨hb, hc⟩ | ⟨hb, hc⟩ | ⟨hb, hc⟩ <;>
    (rw [hc]; obtain rfl := hcls.symm.trans hb; exact ⟨_, rfl, rfl, rfl, fun _ => rfl⟩)

/-- The step on a first group runs it or refuses it, as the event does (rules R82 to R86, R90). -/
theorem step_byteGroup_awaiting {s : State} {g : Group} {rest : List Event} (he : s.events = .byteGroup g :: rest)
    (hs : s.state = .awaitingOperationByte) : step s = exec (.byteGroup g) (s.withEvents rest) := by
  have hcode : fetchCode s (.byteGroup g) = .operation g := by simp only [fetchCode, hs]
  rw [step_cons he, hcode, decode]
  cases hg : g.toChip with
  | nil =>
    have : decodeOperation g = .error .emptyFirstGroup := by simp only [decodeOperation, hg]
    rw [this, exec_byteGroup_of_empty (s := s.withEvents rest) hs hg]
  | cons op tail =>
    obtain ⟨i, hi, -, -, hexec⟩ := decodeOperation_of_cons hg
    rw [hi, exec_byteGroup_of_awaiting (s := s.withEvents rest) hs hg]
    exact hexec _

/-- The step on a `Disable` in a classified state runs the row of the buffer's shape or of its key (rule R91). -/
theorem step_disable_classified {s : State} {c : Classified} {rest : List Event} (he : s.events = .disable :: rest)
    (hs : s.state = .classified c) : step s = exec .disable (s.withEvents rest) := by
  rw [step_cons he, ← exec_decodeFrame (s := s.withEvents rest) hs]
  cases hn : namesUnlisted s.config (decodeFrame c s.buf) with
  | true =>
    have hcode : fetchCode s .disable = .frame c s.buf := by simp only [fetchCode, hs, hn, if_true]
    rw [hcode]
    rfl
  | false =>
    have hcode : fetchCode s .disable = .command c s.buf := by
      simp only [fetchCode, hs, hn, Bool.false_eq_true, if_false]
    rw [hcode]
    exact commandRowIsItsShape (s.withEvents rest) _ hn

/-- A step on an event is the event's own meaning: a first group and the end of a classified cycle are read below the
level of the event, every other event is its own row. -/
theorem step_eq_exec {s : State} {e : Event} {rest : List Event} (he : s.events = e :: rest) :
    step s = exec (.ofEvent e) (s.withEvents rest) := by
  have own (hcode : fetchCode s e = .event e) : step s = exec (.ofEvent e) (s.withEvents rest) := by
    rw [step_cons he, hcode]; rfl
  cases e with
  | enable => exact own rfl
  | byteGroup g =>
    cases hs : s.state with
    | awaitingOperationByte => exact step_byteGroup_awaiting he hs
    | idle => exact own (by simp only [fetchCode, hs])
    | classified c => exact own (by simp only [fetchCode, hs])
  | disable =>
    cases hs : s.state with
    | classified c => exact step_disable_classified he hs
    | idle => exact own (by simp only [fetchCode, hs])
    | awaitingOperationByte => exact own (by simp only [fetchCode, hs])

/-- Settles O37: the row that is run is the event. -/
theorem rowByRowStepIsTheEvent : Obligations.RowByRowStepIsTheEvent := fun _ _ _ => step_eq_exec

/-- Everything a step on an event can come to. -/
theorem step_result {s : State} {e : Event} {rest : List Event} (he : s.events = e :: rest) :
    EventResult (s.withEvents rest) e (step s) :=
  (step_eq_exec he).symm ▸ exec_ofEvent_result (s.withEvents rest) e

/-- Everything a step on an event can come to when it answers a next state. -/
theorem step_next_result {s t : State} {e : Event} {rest : List Event} (he : s.events = e :: rest)
    (h : step s = .next t) : EventResult (s.withEvents rest) e (.next t) :=
  h ▸ step_result he

end Sys2Proof.Machine
end

section
/-! The invariant (spec/10_state.md) and the results of the parser that it speaks of (spec/30_encoding.md section 5). -/

namespace Sys2Proof.Machine

/-- A shape's fields are a combination that can occur in its state (rules R60, R114, R116). -/
theorem Shape.legalFields_eq {cfg : Config} {st : Classified} {b : List Byte} {i : Instr} {f : Fields}
    (h : Shape cfg st b i f) : legalFields st f = true := by
  cases h <;> rfl

/-- Bytes without a command are the whole buffer (rule R101). -/
theorem Shape.bytes_eq {cfg : Config} {st : Classified} {b p : List Byte} {i : Instr} {f : Fields}
    (h : Shape cfg st b i f) (hf : f = { data := .bytes p, cmd := none }) : p = b := by
  cases h with
  | respShort len lcs => cases hf; rfl
  | rawFallback st b _ => cases hf; rfl
  | _ => cases hf

/-- Settles O21: both are facts about the buffer's shape. -/
theorem parserResultsAreLegal : Obligations.ParserResultsAreLegal := fun c st b =>
  have h := shape_decodeFrame_parse c st b
  ⟨h.legalFields_eq, fun _ => h.bytes_eq⟩

/-- Delivering an event keeps the invariant, which does not speak of the events. -/
theorem Inv.withEvents {s : State} (h : Inv s) (es : List Event) : Inv (s.withEvents es) :=
  ⟨h.bufEmpty, h.startKnown, h.rawHead, h.outputNewest, h.framesLegal⟩

/-- A cycle opens with an empty buffer. -/
theorem Inv.openCycle {s : State} (h : Inv s) : Inv (openCycle s) where
  bufEmpty _ := rfl
  startKnown _ hc := nomatch hc
  rawHead hc := nomatch hc
  outputNewest _ ho := nomatch ho
  framesLegal := h.framesLegal

/-- A first group of class `c` stores nothing, or, in the raw class, its operation byte first. -/
theorem Inv.firstGroup {s : State} (h : Inv s) {g : Group} {op : Byte} {tail : List Byte}
    (hs : s.state = .awaitingOperationByte) (hg : g.toChip = op :: tail) : Inv (firstGroup (opClass op) g s) where
  bufEmpty hc := absurd rfl (hc (opClass op))
  startKnown _ _ := rfl
  rawHead hc := by
    have hraw : opClass op = .rawCapture := by simpa using hc
    have hbuf : s.buf = [] := h.bufEmpty (by simp [hs])
    refine ⟨op, tail, by simp [hbuf, hraw, firstLane, hg], ?_⟩
    rw [← opClassBits_eq_mod]
    rcases opClass_of_bits op with ⟨_, hc⟩ | ⟨_, hc⟩ | ⟨_, hc⟩ | ⟨hb, _⟩
    · simp [hraw] at hc
    · simp [hraw] at hc
    · simp [hraw] at hc
    · rw [hb]; rfl
  outputNewest _ ho := nomatch ho
  framesLegal := by simpa using h.framesLegal

/-- A later group appends, so a raw buffer keeps its first byte. -/
theorem Inv.accumulate {s : State} (h : Inv s) {c : Classified} (hs : s.state = .classified c) (g : Group) :
    Inv (accumulate c g s) where
  bufEmpty hc := absurd hs (hc c)
  startKnown := h.startKnown
  rawHead hc := by
    obtain ⟨op, rest, hbuf, hop⟩ := h.rawHead hc
    exact ⟨op, rest ++ g.bytes (laneOf c), by simp [hbuf], hop⟩
  outputNewest _ ho := nomatch ho
  framesLegal := by simpa using h.framesLegal

/-- A cycle ends with an empty buffer and an output that is the newest frame, if that frame is legal. -/
theorem Inv.endCycle {s : State} (h : Inv s) {o : Option DecodedFrame} (ho : ∀ f ∈ o, legalFrame f = true) :
    Inv (endCycle o s) where
  bufEmpty _ := rfl
  startKnown _ hc := nomatch hc
  rawHead hc := nomatch hc
  outputNewest f hf := by
    obtain rfl : o = some f := hf
    simp
  framesLegal := by simpa [or_imp, forall_and] using ⟨h.framesLegal, ho⟩

/-- The frame of a classified cycle is legal: its start time has a value, its fields are the parser's. -/
theorem Inv.legalFrame_frameOf {s : State} (h : Inv s) {c : Classified} (hs : s.state = .classified c) :
    legalFrame (frameOf c (parse s.config c s.buf) s) = true :=
  Bool.and_eq_true_iff.mpr ⟨h.startKnown c hs, (parserResultsAreLegal s.config c s.buf).1⟩

/-- Settles O47: each of the events' five effects keeps the invariant. -/
theorem stepKeepsInvariant : Obligations.StepKeepsInvariant := by
  intro s t hinv h
  cases he : s.events with
  | nil =>
    have : step s = .next s := by simp only [step, he]
    cases this.symm.trans h
    exact hinv
  | cons e rest =>
    have hinv' := hinv.withEvents rest
    cases step_next_result he h with
    | enable => exact hinv'.openCycle
    | firstGroup g op tail hs hg => exact hinv'.firstGroup hs hg
    | laterGroup g c hs => exact hinv'.accumulate hs g
    | quietDisable hs => exact hinv'.endCycle (by simp)
    | frame c hs hf => exact hinv'.endCycle fun f hmem => Option.mem_some.mp hmem ▸ hinv'.legalFrame_frameOf hs

/-- Settles O46: reset is between cycles, and no frame has been received. -/
theorem resetMeetsInvariant : Obligations.ResetMeetsInvariant where
  bufEmpty _ := rfl
  startKnown _ hc := nomatch hc
  rawHead hc := nomatch hc
  outputNewest _ ho := nomatch ho
  framesLegal _ hf := nomatch hf

end Sys2Proof.Machine
end

section
/-! Encoding and decoding undo each other (spec/30_encoding.md). -/

namespace Sys2Proof.Machine

/-- The encoding of a shape's row is its buffer. -/
theorem Shape.encode_eq {cfg : Config} {st : Classified} {b : List Byte} {i : Instr} {f : Fields}
    (h : Shape cfg st b i f) : encode i = .frame st b := by
  cases h <;> rfl

/-- A shape's row is well formed. -/
theorem Shape.wf {cfg : Config} {st : Classified} {b : List Byte} {i : Instr} {f : Fields}
    (h : Shape cfg st b i f) : i.wf = true := by
  cases h with
  | cmdWrite b0 b1 b2 len lcs pd0 rest hw => exact hw
  | rawFallback st b h => exact congrArg (!·) h
  | _ => rfl

/-- Settles O52: a buffer by its shape, a first group by its operation byte. -/
theorem encodeOfDecode : Obligations.EncodeOfDecode := by
  refine ⟨fun st b => (shape_decodeFrame_parse defaultConfig st b).encode_eq, fun g i h => ?_⟩
  obtain ⟨op, tail, hg⟩ := List.exists_cons_of_ne_nil ((decodeOperation_isOk_iff g).mp ⟨i, h⟩)
  obtain ⟨i', hi', henc, -, -⟩ := decodeOperation_of_cons hg
  cases hi'.symm.trans h
  exact henc

/-- The encoding of a `cmd` row decodes to the row that is found under its key. -/
theorem decode_encodeCommand {key : Byte} {f : Carrier} {mk : Carrier → Instr} (hw : f.wf = true) (hk : key ≠ 0xFF)
    (hfound : commandRows.find? (fun r => zext r.1 == zext key) = some (key, mk)) :
    decode (encodeCommand key f) = .ok (mk f) := by
  rw [encodeCommand, decode_command, refine_decode_carrierBytes f _ hw]
  simp only [commandRow, carrierKey_carrierOpcode f key hk, hfound]

/-- A carrier whose key no row lists decodes to `CMD_UNKNOWN`. -/
theorem decode_unlisted {f : Carrier} {pd0 : Byte} (hw : f.wf = true) (hk : isListed (carrierKey f pd0) = false) :
    decode (.command (carrierLabel f) (carrierBytes f pd0)) = .ok (.cmdUnknown pd0 f) := by
  rw [decode_command, refine_decode_carrierBytes f _ hw]
  simp only [commandRow, (commandRows_find_none_iff _).mpr hk]

/-- An instruction with a shape decodes from its buffer. -/
theorem Shape.decode_frame_eq {cfg : Config} {st : Classified} {b : List Byte} {i : Instr} {f : Fields}
    (h : Shape cfg st b i f) : decode (.frame st b) = .ok i :=
  congrArg Except.ok h.decodeFrame_eq

/-- Settles O51: events are taken whole, operation bytes and buffers read to their row, and the thirty-two `cmd` rows
with a key are found under it. -/
theorem decodeOfEncode : Obligations.DecodeOfEncode := by
  intro i hw
  cases i with
  | enable | byteGroup | disable => rfl
  | opStatusRead o | opDataRead o | opDataWrite o | opRaw o =>
    exact (decodeOperation_opGroup o _).trans (by rw [opClass_opByte]; rfl)
  | status v => exact (Shape.status (cfg := defaultConfig) v).decode_frame_eq
  | ackRead rest => exact (Shape.ackRead (cfg := defaultConfig) rest).decode_frame_eq
  | nackRead rest => exact (Shape.nackRead (cfg := defaultConfig) rest).decode_frame_eq
  | resp len lcs pd0 rest => exact (Shape.resp (cfg := defaultConfig) len lcs pd0 rest).decode_frame_eq
  | respShort len lcs => exact (Shape.respShort (cfg := defaultConfig) len lcs).decode_frame_eq
  | cmdWrite b0 b1 b2 len lcs pd0 rest =>
    exact (Shape.cmdWrite (cfg := defaultConfig) b0 b1 b2 len lcs pd0 rest hw).decode_frame_eq
  | ackRaw => exact (Shape.ackRaw (cfg := defaultConfig)).decode_frame_eq
  | nackRaw => exact (Shape.nackRaw (cfg := defaultConfig)).decode_frame_eq
  | rawFallback st b =>
    exact (Shape.rawFallback (cfg := defaultConfig) st b (by simpa [Instr.wf] using hw)).decode_frame_eq
  | cmdUnknown pd0 f =>
    obtain ⟨hf, hk⟩ : f.wf = true ∧ isListed (carrierKey f pd0) = false := by simpa [Instr.wf] using hw
    exact decode_unlisted hf hk
  | _ => exact decode_encodeCommand hw (by decide) rfl

/-- A `cmd` row is well formed where its carrier is. -/
theorem wf_of_mem_commandRows : ∀ r ∈ commandRows, ∀ f : Carrier, (r.2 f).wf = f.wf := by
  intro r hr f
  simp only [commandRows, commandRowsLow, commandRowsIn, commandRowsTg, List.cons_append, List.nil_append] at hr
  fin_cases hr <;> rfl

/-- The row a well-formed carrier is read on to is well formed. -/
theorem wf_commandRow {f : Carrier} (hw : f.wf = true) (pd0 : Byte) : (commandRow f pd0).wf = true := by
  unfold commandRow
  split
  · next r hfound => rw [wf_of_mem_commandRows r (commandRows_find_some hfound).1, hw]
  · next hnone => simp [Instr.wf, hw, (commandRows_find_none_iff _).mp hnone]

/-- Reading a well-formed instruction on to its key keeps it well formed. -/
theorem wf_refineCommand {i : Instr} (hw : i.wf = true) : (refineCommand i).wf = true := by
  cases i with
  | resp len lcs pd0 rest => exact wf_commandRow rfl pd0
  | cmdWrite b0 b1 b2 len lcs pd0 rest => exact wf_commandRow (f := .write b0 b1 b2 len lcs rest) hw pd0
  | _ => exact hw

/-- The row of a buffer's shape is well formed. -/
theorem wf_decodeFrame (st : Classified) (b : List Byte) : (decodeFrame st b).wf = true :=
  (shape_decodeFrame_parse defaultConfig st b).wf

/-- Settles O53: level by level. -/
theorem decodedInstructionsAreWellFormed : Obligations.DecodedInstructionsAreWellFormed := by
  intro code i h
  cases code with
  | event e => cases h; cases e <;> rfl
  | operation g =>
    obtain ⟨op, tail, hg⟩ := List.exists_cons_of_ne_nil ((decodeOperation_isOk_iff g).mp ⟨i, h⟩)
    obtain ⟨i', hi', -, hw, -⟩ := decodeOperation_of_cons hg
    cases hi'.symm.trans h
    exact hw
  | frame st b => cases h; exact wf_decodeFrame st b
  | command st b => cases h; exact wf_refineCommand (wf_decodeFrame st b)

end Sys2Proof.Machine
end

section
/-! Timestamps are copied and nothing else (rule R147), so their type is a parameter (rule R5). -/

namespace Sys2Proof.Machine

section
variable {T : Type} (v : Time → T) (s : State)

/-! What each register write stands for over `T`. -/

theorem over_openCycle : (openCycle s).over v =
    { s.over v with state := .awaitingOperationByte, buf := [], output := none } := rfl

theorem over_withEvents (es : List Event) :
    (s.withEvents es).over v = { s.over v with events := es.map (mapTimeEvent v) } := rfl

theorem over_firstGroup (c : Classified) (g : Group) : (firstGroup c g s).over v =
    { s.over v with
      state := .classified c, tStart := some (v g.ts), buf := (s.over v).buf ++ firstLane c g, output := none } := by
  rw [firstGroup_eq]; rfl

theorem over_accumulate (c : Classified) (g : Group) : (accumulate c g s).over v =
    { s.over v with tEnd := some (v g.te), buf := (s.over v).buf ++ g.bytes (laneOf c), output := none } := by
  rw [accumulate_eq]; rfl

theorem over_endCycle_none : (endCycle none s).over v =
    { s.over v with state := .idle, buf := [], output := none } := by
  rw [endCycle_none]; rfl

theorem over_emitFrame (c : Classified) (f : Fields) :
    (emitFrame c f s).over v =
      { s.over v with
        state := .idle, buf := []
        output := some { label := c, startTime := (s.over v).tStart, endTime := (s.over v).tEnd, fields := f }
        frames := (s.over v).frames ++
          [{ label := c, startTime := (s.over v).tStart, endTime := (s.over v).tEnd, fields := f }] } := by
  simp [State.over, emitFrame, mapTimeFrame, frameOf]
end

section
variable {T : Type} {v v' : Time → T} {s s' : State}

/-- Two byte groups that stand for one come to the same. -/
theorem outcomeOver_byteGroup_congr (h : s.over v = s'.over v') {g g' : Group}
    (hg : mapTimeGroup v g = mapTimeGroup v' g') :
    outcomeOver v (exec (.byteGroup g) s) = outcomeOver v' (exec (.byteGroup g') s') := by
  have hstate : s.state = s'.state := congrArg StateOver.state h
  obtain ⟨tos, froms, ts, te⟩ := g
  obtain ⟨tos', froms', ts', te'⟩ := g'
  simp only [mapTimeGroup, GroupOver.mk.injEq] at hg
  obtain ⟨rfl, rfl, hts, hte⟩ := hg
  cases hs : s'.state with
  | idle => rw [exec_byteGroup_of_idle hs, exec_byteGroup_of_idle (hstate.trans hs)]; rfl
  | awaitingOperationByte =>
    cases tos with
    | nil => rw [exec_byteGroup_of_empty hs rfl, exec_byteGroup_of_empty (hstate.trans hs) rfl]; rfl
    | cons op tail =>
      rw [exec_byteGroup_of_awaiting hs rfl, exec_byteGroup_of_awaiting (hstate.trans hs) rfl]
      simp only [outcomeOver, over_firstGroup, h, hts]
      cases opClass op <;> rfl
  | classified c =>
    rw [exec_byteGroup_accumulates hs, exec_byteGroup_accumulates (hstate.trans hs)]
    simp only [outcomeOver, over_accumulate, h, hte]
    cases c <;> rfl

/-- `Disable` reads the state, the buffer and the configuration, which hold no timestamp. -/
theorem outcomeOver_disable_congr (h : s.over v = s'.over v') :
    outcomeOver v (exec .disable s) = outcomeOver v' (exec .disable s') := by
  have hstate : s.state = s'.state := congrArg StateOver.state h
  have hbuf : s.buf = s'.buf := congrArg StateOver.buf h
  have hconfig : s.config = s'.config := congrArg StateOver.config h
  by_cases hs : ∃ c, s'.state = .classified c
  · obtain ⟨c, hs⟩ := hs
    have hshort : shortFault s c s.buf = shortFault s' c s'.buf := by rw [shortFault, shortFault, hbuf, hconfig]
    rw [exec_disable_of_classified hs, exec_disable_of_classified (hstate.trans hs), hshort, hbuf, hconfig]
    cases shortFault s' c s'.buf with
    | true => rfl
    | false => exact congrArg Host.Outcome.next (by rw [over_emitFrame, over_emitFrame, h])
  · have hs : ∀ c, s'.state ≠ .classified c := fun c h => hs ⟨c, h⟩
    rw [exec_disable_of_not_classified hs, exec_disable_of_not_classified (hstate ▸ hs)]
    simp only [outcomeOver, over_endCycle_none, h]

/-- Two events that stand for one come to the same. -/
theorem outcomeOver_exec_congr (h : s.over v = s'.over v') {e e' : Event} (he : mapTimeEvent v e = mapTimeEvent v' e') :
    outcomeOver v (exec (.ofEvent e) s) = outcomeOver v' (exec (.ofEvent e') s') := by
  cases e with
  | enable =>
    cases e' with
    | enable => simp only [Instr.ofEvent, exec_enable, outcomeOver, over_openCycle, h]
    | _ => cases he
  | byteGroup g =>
    cases e' with
    | byteGroup g' => exact outcomeOver_byteGroup_congr h (EventOver.byteGroup.inj he)
    | _ => cases he
  | disable =>
    cases e' with
    | disable => exact outcomeOver_disable_congr h
    | _ => cases he

/-- A step over `T`: two states that stand for one step to the same. -/
theorem outcomeOver_step_congr (h : s.over v = s'.over v') : outcomeOver v (step s) = outcomeOver v' (step s') := by
  have hevents : s.events.map (mapTimeEvent v) = s'.events.map (mapTimeEvent v') := congrArg StateOver.events h
  cases hes : s.events with
  | nil =>
    have hes' : s'.events = [] := by simpa [hes] using hevents
    simp only [step, hes, hes', outcomeOver, h]
  | cons e rest =>
    rw [hes, List.map_cons, eq_comm, List.map_eq_cons_iff] at hevents
    obtain ⟨e', rest', hes', he, hrest⟩ := hevents
    rw [step_eq_exec hes, step_eq_exec hes']
    exact outcomeOver_exec_congr (by rw [over_withEvents, over_withEvents, h, hrest]) he.symm
end

/-! ## Renamings that leave a state as it is -/

/-- The timestamps in an event. -/
def eventTimes {T : Type} : EventOver T → List T
  | .byteGroup g => [g.ts, g.te]
  | .enable | .disable => []

/-- The timestamps in a frame. -/
def frameTimes {T : Type} (f : DecodedFrameOver T) : List T := f.startTime.toList ++ f.endTime.toList

/-- The timestamps in a state. -/
def StateOver.times {T : Type} (S : StateOver T) : List T :=
  S.tStart.toList ++ S.tEnd.toList ++ S.events.flatMap eventTimes ++ S.output.toList.flatMap frameTimes ++
    S.frames.flatMap frameTimes

/-- The state that holds a name where `S` holds a timestamp. -/
def StateOver.named {T : Type} (w : T → Time) (S : StateOver T) : State :=
  { state := S.state
    buf := S.buf
    tStart := S.tStart.map w
    tEnd := S.tEnd.map w
    events := S.events.map (mapTimeEvent w)
    output := S.output.map (mapTimeFrame w)
    frames := S.frames.map (mapTimeFrame w)
    config := S.config }

/-- Reading back what was written gives a list back, and an option. -/
theorem list_map_map_eq_self {α β : Type} {f : α → β} {g : β → α} {l : List α} (h : ∀ x ∈ l, g (f x) = x) :
    (l.map f).map g = l := by
  rw [List.map_map]
  exact (List.map_congr_left h).trans (List.map_id _)

theorem option_map_map_eq_self {α β : Type} {f : α → β} {g : β → α} {o : Option α} (h : ∀ x ∈ o, g (f x) = x) :
    (o.map f).map g = o := by
  cases o with
  | none => rfl
  | some x => exact congrArg some (h x rfl)

/-- A renaming that keeps the timestamps in an event keeps the event, and likewise a frame. -/
theorem mapTimeEvent_eq_self {T : Type} {f : T → T} {e : EventOver T} (h : ∀ x ∈ eventTimes e, f x = x) :
    mapTimeEvent f e = e := by
  cases e with
  | byteGroup g =>
    simp only [mapTimeEvent, mapTimeGroup, h g.ts (by simp [eventTimes]), h g.te (by simp [eventTimes])]
  | _ => rfl

theorem mapTimeFrame_eq_self {T : Type} {f : T → T} {r : DecodedFrameOver T} (h : ∀ x ∈ frameTimes r, f x = x) :
    mapTimeFrame f r = r := by
  simp only [frameTimes, List.mem_append, Option.mem_toList, or_imp, forall_and] at h
  obtain ⟨hstart, hend⟩ := h
  have hs : r.startTime.map f = r.startTime := (Option.map_congr hstart).trans Option.map_id'
  have he : r.endTime.map f = r.endTime := (Option.map_congr hend).trans Option.map_id'
  rw [mapTimeFrame, hs, he]

/-- If each of its timestamps is named and read back, a state over `T` is what its named state stands for. -/
theorem StateOver.named_over {T : Type} {v : Time → T} {w : T → Time} {S : StateOver T}
    (h : ∀ x ∈ S.times, v (w x) = x) : (S.named w).over v = S := by
  simp only [StateOver.times, List.mem_append, List.mem_flatMap, Option.mem_toList, or_imp, forall_and] at h
  obtain ⟨⟨⟨⟨hstart, hend⟩, hevents⟩, houtput⟩, hframes⟩ := h
  have event (e) (he : e ∈ S.events) : mapTimeEvent v (mapTimeEvent w e) = e := by
    rw [mapTimeEvent_mapTimeEvent]
    exact mapTimeEvent_eq_self fun x hx => hevents x ⟨e, he, hx⟩
  have frame (r) (hr : ∀ x ∈ frameTimes r, v (w x) = x) : mapTimeFrame v (mapTimeFrame w r) = r := by
    rw [mapTimeFrame_mapTimeFrame]
    exact mapTimeFrame_eq_self hr
  have hout : ∀ r ∈ S.output, mapTimeFrame v (mapTimeFrame w r) = r :=
    fun r hr => frame r fun x hx => houtput x ⟨r, hr, hx⟩
  have hfr : ∀ r ∈ S.frames, mapTimeFrame v (mapTimeFrame w r) = r :=
    fun r hr => frame r fun x hx => hframes x ⟨r, hr, hx⟩
  simp only [State.over, StateOver.named, option_map_map_eq_self hstart, option_map_map_eq_self hend,
    list_map_map_eq_self event, option_map_map_eq_self hout, list_map_map_eq_self hfr]

/-- Finitely many timestamps have names: their places in a list. -/
theorem exists_naming {T : Type} [Nonempty T] (l : List T) : ∃ (v : Time → T) (w : T → Time), ∀ x ∈ l, v (w x) = x := by
  classical
  refine ⟨fun t => l.getD t.name (Classical.arbitrary T), fun x => ⟨l.idxOf x⟩, fun x hx => ?_⟩
  simp [List.getD_eq_getElem?_getD, List.getElem?_idxOf hx]

/-- Settles O59: the step over `T` is well defined, and a state over `T` holds finitely many timestamps. -/
theorem timestampTypeIsAParameter : Obligations.TimestampTypeIsAParameter := by
  refine fun T => ⟨fun v v' s s' h => outcomeOver_step_congr h, fun _ S => ?_⟩
  obtain ⟨v, w, h⟩ := exists_naming S.times
  exact ⟨v, S.named w, StateOver.named_over h⟩

theorem mapTimeEvent_id {T : Type} : mapTimeEvent (id : T → T) = id :=
  funext fun _ => mapTimeEvent_eq_self fun _ _ => rfl

theorem mapTimeFrame_id {T : Type} : mapTimeFrame (id : T → T) = id :=
  funext fun _ => mapTimeFrame_eq_self fun _ _ => rfl

/-- What a state stands for over the names tells the state. -/
theorem over_id_injective {s s' : State} (h : s.over id = s'.over id) : s = s' := by
  cases s; cases s'
  simpa [State.over, mapTimeEvent_id, mapTimeFrame_id] using h

theorem outcomeOver_id_injective {o o' : Host.Outcome State Fault Refusal}
    (h : outcomeOver id o = outcomeOver id o') : o = o' := by
  cases o with
  | next s =>
    cases o' with
    | next s' => exact congrArg _ (over_id_injective (Host.Outcome.next.inj h))
    | _ => cases h
  | fault r =>
    cases o' with
    | fault r' => exact congrArg _ (Host.Outcome.fault.inj h)
    | _ => cases h
  | refused r =>
    cases o' with
    | refused r' => exact congrArg _ (Host.Outcome.refused.inj h)
    | _ => cases h

/-- A renamed state stands, over the names, for what the state stands for under the renaming. -/
theorem over_id_mapTime (h : Time → Time) (s : State) : (mapTime h s).over id = s.over h := by
  simp [mapTime, State.over, Function.comp_def]

theorem outcomeOver_id_mapTimeOutcome (h : Time → Time) (o : Host.Outcome State Fault Refusal) :
    outcomeOver id (mapTimeOutcome h o) = outcomeOver h o := by
  cases o with
  | next s => exact congrArg _ (over_id_mapTime h s)
  | fault r => rfl
  | refused r => rfl

/-- Settles O48: a renaming is a naming by names. -/
theorem timestampsAreOnlyCopied : Obligations.TimestampsAreOnlyCopied := fun h s =>
  outcomeOver_id_injective <|
    calc outcomeOver id (step (mapTime h s))
      _ = outcomeOver h (step s) := outcomeOver_step_congr (over_id_mapTime h s)
      _ = outcomeOver id (mapTimeOutcome h (step s)) := (outcomeOver_id_mapTimeOutcome h (step s)).symm

end Sys2Proof.Machine
end

section
/-! The parser's answers by shape (spec/41_parser.md, spec/60_exceptions.md section 1). -/

namespace Sys2Proof.Machine

/-- Settles O22: the payload is a take of a drop. -/
theorem payloadIsClampedDeclaredLength : Obligations.PayloadIsClampedDeclaredLength := by
  refine fun b => ⟨payload_eq b, ?_⟩
  rw [payload_eq, List.length_take, List.length_drop, byteAt]
  omega

/-- Settles O23: an index of the slice is an index past the lower bound. -/
theorem sliceIsClamped : Obligations.SliceIsClamped := by
  intro b lo hi i
  have hidx : ((i : Int) + max lo 0).toNat = lo.toNat + i := by omega
  rw [slice_eq_take_drop, List.getElem?_take, List.getElem?_drop, hidx]
  exact if_congr (by omega) rfl rfl

/-- Settles O15: the response shape, its payload the bytes from index 7 on. -/
theorem responseShapeGivesPayloadAndCommand : Obligations.ResponseShapeGivesPayloadAndCommand := by
  intro c len lcs pd0 rest
  refine (parse_response c len lcs pd0 rest).trans ?_
  rw [commandFields, payload_carrierBytes]
  rfl

/-- Settles O17: the response shape without an opcode. -/
theorem sixByteResponseReadIsRaw : Obligations.SixByteResponseReadIsRaw := parse_shortResponse

/-- Settles O18: the write shape, and each of its three tests failed. -/
theorem writeShapeGivesPayloadAndCommand : Obligations.WriteShapeGivesPayloadAndCommand := by
  refine fun c => ⟨fun b0 b1 b2 len b4 pd0 b7 b8 rest hlen => ?_, fun b hb => ?_⟩
  · have hw : (Carrier.write b0 b1 b2 len b4 (b7 :: b8 :: rest)).wf = true :=
      write_wf_iff.mpr ⟨by simpa [zext] using hlen, b7, b8, rest, rfl⟩
    refine (parse_written c hw pd0).trans ?_
    rw [commandFields, payload_carrierBytes]
    rfl
  · refine if_neg fun ⟨hlen, habove, hdir⟩ => ?_
    rcases hb with hb | hb | hb
    · omega
    · simp only [zext, byteAt] at habove
      omega
    · exact hb (by simpa [hasCmdDirection, byteAt, cmdDirection] using hdir)

/-- Every row but the fallback takes the buffers of its shape. -/
theorem Shape.rowTakes_or_raw {cfg : Config} {st : Classified} {b : List Byte} {i : Instr} {f : Fields}
    (h : Shape cfg st b i f) : rowTakes st b = true ∨ (rowTakes st b = false ∧ f = rawFields b) := by
  cases h with
  | rawFallback st b h => exact .inr ⟨h, rfl⟩
  | status v => exact .inl rfl
  | ackRead rest => exact .inl (rowTakes_preamble 0x00 0xFF 0x00 rest)
  | nackRead rest => exact .inl (rowTakes_preamble 0xFF 0x00 0x00 rest)
  | resp len lcs pd0 rest => exact .inl ((rowTakes_preamble len lcs respDirection (pd0 :: rest)).trans (by simp))
  | respShort len lcs => exact .inl ((rowTakes_preamble len lcs respDirection []).trans (by simp))
  | cmdWrite b0 b1 b2 len lcs pd0 rest hw => exact .inl (shape3_iff.mpr ⟨b0, b1, b2, len, lcs, pd0, rest, hw, rfl⟩)
  | ackRaw => exact .inl rfl
  | nackRaw => exact .inl rfl

/-- The one cause of the soft failure on a buffer that a row takes (rule R107). -/
def shortCause : Classified → List Byte → Bool
  | .readingData, b => hasRespDirection b && !hasAckCode b && !hasNackCode b && (b.length == 6)
  | .readingStatus, _ | .writingData, _ | .rawCapture, _ => false

/-- Rule R141's table: the other causes of a state are, by De Morgan's laws, that no row takes the buffer. -/
theorem softFailure_eq (st : Classified) (b : List Byte) : softFailure st b = (!rowTakes st b || shortCause st b) := by
  cases st with
  | readingStatus => exact (Bool.or_false _).symm
  | readingData =>
    simp only [softFailure, rowTakes, shape2, shortCause, Bool.not_and, Bool.not_or, ← decide_not, Nat.not_le]
  | writingData =>
    simp only [softFailure, rowTakes, shape3, shortCause, lengthAboveOne, Bool.not_and, ← decide_not, Nat.not_le,
      Int.not_lt, Bool.or_false]
  | rawCapture =>
    simp only [softFailure, rowTakes, shape4, shortCause, Bool.not_and, Bool.not_or, Bool.or_false, bne]

/-- A frame that carries a command is not the raw fallback (rule R144). -/
theorem commandFields_ne_rawFields (f : Carrier) (pd0 : Byte) (cmd : Cmd) (b : List Byte) :
    commandFields f pd0 cmd ≠ rawFields b := by
  simp [commandFields, rawFields]

/-- A shape fails softly exactly where its fields are the raw buffer. -/
theorem Shape.softFailure_iff {cfg : Config} {st : Classified} {b : List Byte} {i : Instr} {f : Fields}
    (h : Shape cfg st b i f) : f = rawFields b ↔ softFailure st b = true := by
  rw [softFailure_eq]
  rcases h.rowTakes_or_raw with htakes | ⟨htakes, hf⟩
  · rw [htakes, Bool.not_true, Bool.false_or]
    cases h with
    | rawFallback st b h => cases h.symm.trans htakes
    | ackRead rest => exact iff_of_false nofun (by simp [shortCause, hasAckCode, preamble, ackCode])
    | nackRead rest => exact iff_of_false nofun (by simp [shortCause, hasNackCode, preamble, nackCode])
    | resp len lcs pd0 rest =>
      exact iff_of_false (commandFields_ne_rawFields _ _ _ _) (by simp [shortCause, carrierBytes, preamble])
    | respShort len lcs =>
      exact iff_of_true rfl (by simp [shortCause, hasRespDirection, hasAckCode, hasNackCode, byteAt, preamble, ackCode,
        nackCode, respDirection])
    | cmdWrite b0 b1 b2 len lcs pd0 rest hw => exact iff_of_false (commandFields_ne_rawFields _ _ _ _) nofun
    | status v => exact iff_of_false nofun nofun
    | ackRaw => exact iff_of_false nofun nofun
    | nackRaw => exact iff_of_false nofun nofun
  · exact iff_of_true hf (by rw [htakes]; rfl)

/-- Settles O20: a fact about the buffer's shape. -/
theorem softFailureHasExactlyItsCauses : Obligations.SoftFailureHasExactlyItsCauses := fun c st b =>
  (shape_decodeFrame_parse c st b).softFailure_iff

/-- Where the marker with this code is recognised (rule R116). -/
def MarkerPlace (code : List Byte) (st : Classified) (b : List Byte) : Prop :=
  (st = .readingData ∧ b.take 6 = preamble ++ code) ∨ (st = .rawCapture ∧ b = preamble ++ code)

/-- A row takes the buffer there. -/
theorem rowTakes_of_markerPlace {code : List Byte} {st : Classified} {b : List Byte}
    (hcode : code = ackCode ∨ code = nackCode) (h : MarkerPlace code st b) : rowTakes st b = true := by
  rcases h with ⟨rfl, h⟩ | ⟨rfl, rfl⟩
  · have hb : b = preamble ++ (code ++ b.drop 6) := by
      rw [← List.append_assoc, ← h, List.take_append_drop]
    rw [hb]
    rcases hcode with rfl | rfl
    · exact rowTakes_preamble 0x00 0xFF 0x00 _
    · exact rowTakes_preamble 0xFF 0x00 0x00 _
  · exact rowTakes_rawCapture_iff.mpr (by rcases hcode with rfl | rfl <;> simp)

/-- A shape's data is a marker exactly in the marker's place. -/
theorem Shape.marker_iff {cfg : Config} {st : Classified} {b : List Byte} {i : Instr} {f : Fields}
    (h : Shape cfg st b i f) :
    (f.data = .ack ↔ MarkerPlace ackCode st b) ∧ (f.data = .nack ↔ MarkerPlace nackCode st b) := by
  cases h with
  | rawFallback st b h =>
    have none {code} (hcode : code = ackCode ∨ code = nackCode) : ¬MarkerPlace code st b := fun hm => by
      simp [rowTakes_of_markerPlace hcode hm] at h
    exact ⟨iff_of_false nofun (none (.inl rfl)), iff_of_false nofun (none (.inr rfl))⟩
  | _ => simp [MarkerPlace, commandFields, carrierBytes, preamble, ackCode, nackCode, respDirection, rawFields]

/-- Settles O14: a fact about the buffer's shape. -/
theorem markersExactlyWhereRecognised : Obligations.MarkersExactlyWhereRecognised := fun c st b =>
  (shape_decodeFrame_parse c st b).marker_iff

end Sys2Proof.Machine
end

section
/-! The command table and the rows that emit (spec/42_command_table.md; log entry 7). -/

namespace Sys2Proof.Machine

/-- A byte is in the lookup's domain, and looked up under itself (rule R130). -/
theorem exists_name_iff_isSome (c : Config) (k : Byte) :
    (∃ n, lookup c (zext k) = .name n) ↔ (commandName c k).isSome := by
  have hdom : 0 ≤ zext k ∧ zext k ≤ 255 := by
    have := k.isLt
    simp only [zext]
    omega
  have hk : BitVec.ofInt 8 (zext k) = k := by simp [zext]
  cases hn : commandName c k with
  | some n => exact iff_of_true ⟨n, lookup_of_entry hdom (hk.symm ▸ hn)⟩ rfl
  | none => simp [lookup_of_absent hdom (hk.symm ▸ hn)]

/-- Settles O26: opcode `00` is outside the domain, every other opcode less one is the byte before it. -/
theorem responseKeyDoesNotWrap : Obligations.ResponseKeyDoesNotWrap := by
  rintro c f len lcs pd0 rest rfl
  refine ⟨fun h => ?_, fun h => ?_⟩
  · have hkey : ¬(0 ≤ zext 0x00 - 1 ∧ zext 0x00 - 1 ≤ 255) := by decide
    rw [h]
    exact lookup_of_outside c hkey
  · have hne : pd0.toNat ≠ 0 := fun h0 => h (BitVec.eq_of_toNat_eq h0)
    have hlt := pd0.isLt
    have hkey : zext pd0 - 1 = ((pd0 - 1).toNat : Int) := by
      simp only [zext, BitVec.toNat_sub]
      have : (1 : Byte).toNat = 1 := rfl
      omega
    exact congrArg (lookup c) hkey

/-- A byte has a name where it is the fixed key or the configured table has an entry for it (rules R130, R132). -/
theorem exists_name_iff (c : Config) (k : Byte) :
    (∃ n, lookup c (zext k) = .name n) ↔ k ∈ 0x02 :: c.commands.map Prod.fst := by
  rw [exists_name_iff_isSome, commandName, List.mem_cons]
  split
  · next h => simp [h]
  · next h =>
    rw [List.lookup_isSome_iff, or_iff_right h]
    simp

/-- The default table and the fixed entry have the listed keys (rule R133). -/
theorem listedKeys_perm : listedKeys.Perm (0x02 :: defaultConfig.commands.map Prod.fst) := by decide

theorem even_of_mem_listedKeys : ∀ k ∈ listedKeys, k.toNat % 2 = 0 := by decide

/-- Settles O27: the bytes with a name are the listed keys, all even. -/
theorem defaultTableHasEvenKeysOnly : Obligations.DefaultTableHasEvenKeysOnly := by
  intro k
  have hnamed : k ∈ listedKeys ↔ ∃ n, lookup defaultConfig (zext k) = .name n :=
    listedKeys_perm.mem_iff.trans (exists_name_iff defaultConfig k).symm
  refine ⟨List.contains_iff_mem.trans hnamed, fun hodd => ?_⟩
  rcases lookup_cases defaultConfig (zext k) with hn | hu
  · have := even_of_mem_listedKeys k (hnamed.mpr hn)
    omega
  · exact hu

/-! ## Rows that end a cycle with a frame -/

/-- Settles O28: each row is the end of a cycle with its own frame. -/
theorem markerAndStatusRowsEmit : Obligations.MarkerAndStatusRowsEmit := fun _ _ _ => ⟨rfl, rfl, rfl, rfl, rfl⟩

/-- Settles O29: both rows emit their carrier. -/
theorem commandShapeRowsEmit : Obligations.CommandShapeRowsEmit := fun s b0 b1 b2 len lcs pd0 rest =>
  ⟨congrArg _ (emitFrame_carrier s (.resp len lcs rest) pd0 _),
   congrArg _ (emitFrame_carrier s (.write b0 b1 b2 len lcs rest) pd0 _)⟩

/-- Settles O30: the fallback always, the six byte response under the default of U4. -/
theorem rawRowsEmitTheWholeBuffer : Obligations.RawRowsEmitTheWholeBuffer := by
  refine fun s st b len lcs => ⟨rfl, fun hd => ?_⟩
  simp only [exec, execRespShort, hd]
  rfl

/-- A row with key `key` emits its carrier with what the table has under the key, said with the record. -/
theorem next_emitCommand (key : Byte) (f : Carrier) (s : State) :
    (.next (emitCommand key f s) : Host.Outcome State Fault Refusal) =
      .next (closedWith s (commandRecord s f (lookup s.config (zext key)))) :=
  congrArg _ (emitFrame_carrier s f _ _)

/-- Settles O31: one lemma at twelve keys. -/
theorem chipCommandRowsEmit : Obligations.ChipCommandRowsEmit := fun s f =>
  ⟨next_emitCommand 0x00 f s, next_emitCommand 0x02 f s, next_emitCommand 0x04 f s, next_emitCommand 0x06 f s,
   next_emitCommand 0x08 f s, next_emitCommand 0x0C f s, next_emitCommand 0x0E f s, next_emitCommand 0x10 f s,
   next_emitCommand 0x12 f s, next_emitCommand 0x14 f s, next_emitCommand 0x16 f s, next_emitCommand 0x32 f s⟩

/-- Settles O32: the same at twelve keys. -/
theorem initiatorCommandRowsEmit : Obligations.InitiatorCommandRowsEmit := fun s f =>
  ⟨next_emitCommand 0x40 f s, next_emitCommand 0x42 f s, next_emitCommand 0x44 f s, next_emitCommand 0x46 f s,
   next_emitCommand 0x4A f s, next_emitCommand 0x4E f s, next_emitCommand 0x50 f s, next_emitCommand 0x52 f s,
   next_emitCommand 0x54 f s, next_emitCommand 0x56 f s, next_emitCommand 0x58 f s, next_emitCommand 0x60 f s⟩

/-- Settles O33: the same at eight keys. -/
theorem targetCommandRowsEmit : Obligations.TargetCommandRowsEmit := fun s f =>
  ⟨next_emitCommand 0x86 f s, next_emitCommand 0x88 f s, next_emitCommand 0x8A f s, next_emitCommand 0x8C f s,
   next_emitCommand 0x8E f s, next_emitCommand 0x90 f s, next_emitCommand 0x92 f s, next_emitCommand 0x94 f s⟩

/-- Settles O34: the carrier with the sentinel. -/
theorem unknownCommandRowEmits : Obligations.UnknownCommandRowEmits := fun s f pd0 =>
  congrArg _ (emitFrame_carrier s f pd0 .unknown)

/-! ## Rendering -/

/-- Settles O58: the label and the command by cases, the rest as the record holds it. -/
theorem renderingFollowsTheConfiguration : Obligations.RenderingFollowsTheConfiguration := by
  intro T p f n
  have label {c} (h : f.label = c) : (renderFrame p f).label = renderLabel p.toConfig c :=
    congrArg (renderLabel p.toConfig) h
  have cmd {o} (h : f.fields.cmd = o) : (renderFrame p f).cmd = o.map (renderCmd p.toConfig) :=
    congrArg (Option.map (renderCmd p.toConfig)) h
  exact ⟨label, label, label, label, rfl, rfl, rfl, cmd, cmd, cmd, rfl, rfl⟩

end Sys2Proof.Machine
end

section
/-! What a step does to each register, and where it stops (spec/10_state.md, spec/40_accumulator.md). -/

namespace Sys2Proof.Machine

/-- With no event pending the state stays (rule R151). -/
theorem step_of_no_event {s : State} (h : s.events = []) : step s = .next s := by
  simp only [step, h]

/-- Settles O35: the step's own equation, for an empty queue. -/
theorem noEventNoChange : Obligations.NoEventNoChange := fun _ => step_of_no_event

/-- Settles O36: the step's own equation, for a code that decodes. -/
theorem stepRunsTheDecodedRow : Obligations.StepRunsTheDecodedRow := by
  intro s e rest i he hi
  rw [step_cons he, hi]
  rfl

/-- Settles O8: the step refuses what the event refuses. -/
theorem outOfContractGroupsAreRefused : Obligations.OutOfContractGroupsAreRefused := by
  refine fun s g rest => ⟨fun hs => ⟨exec_byteGroup_of_idle hs g, fun he => ?_⟩,
    fun hs hg => ⟨exec_byteGroup_of_empty hs hg, fun he => ?_⟩⟩
  · exact (step_eq_exec he).trans (exec_byteGroup_of_idle (s := s.withEvents rest) hs g)
  · exact (step_eq_exec he).trans (exec_byteGroup_of_empty (s := s.withEvents rest) hs hg)

/-- Settles O40: each of the events' effects keeps both fields of the state it starts from. -/
theorem stepKeepsConfiguration : Obligations.StepKeepsConfiguration := by
  intro s t h
  cases he : s.events with
  | nil =>
    cases (step_of_no_event he).symm.trans h
    exact ⟨rfl, he⟩
  | cons e rest => cases step_next_result he h <;> exact ⟨rfl, rfl⟩

/-- Settles O41: the `state` of each effect. -/
theorem controlStateFollowsItsPath : Obligations.ControlStateFollowsItsPath := by
  intro s t e rest he h
  cases step_next_result he h with
  | enable => rfl
  | firstGroup g op tail hs hg =>
    rw [show s.state = _ from hs]
    exact ⟨opClass op, rfl⟩
  | laterGroup g c hs =>
    rw [show s.state = _ from hs]
    exact hs
  | quietDisable hs => rfl
  | frame c hs hf => rfl

/-- Settles O42: only the end of a classified cycle has an output. -/
theorem framesLeaveOnlyAtClassifiedDisable : Obligations.FramesLeaveOnlyAtClassifiedDisable := by
  intro s t e rest he h
  cases step_next_result he h with
  | enable => exact .inl ⟨rfl, rfl, fun _ hc => nomatch hc.1⟩
  | firstGroup g op tail hs hg => exact .inl ⟨firstGroup_frames _ _ _, rfl, fun _ hc => nomatch hc.1⟩
  | laterGroup g c hs => exact .inl ⟨accumulate_frames _ _ _, rfl, fun _ hc => nomatch hc.1⟩
  | quietDisable hs => exact .inl ⟨List.append_nil _, rfl, fun c hc => hs c hc.2⟩
  | frame c hs hf => exact .inr ⟨c, _, rfl, hs, rfl, rfl, rfl, rfl, rfl⟩

/-- What a byte group stores in a state that takes it. -/
theorem storedLane_of_awaiting {s : State} {g : Group} {op : Byte} {tail : List Byte}
    (hs : s.state = .awaitingOperationByte) (hg : g.toChip = op :: tail) :
    storedLane s g = firstLane (opClass op) g := by
  simp only [storedLane, hs, hg]

theorem storedLane_of_classified {s : State} {c : Classified} (hs : s.state = .classified c) (g : Group) :
    storedLane s g = g.bytes (laneOf c) := by
  simp only [storedLane, hs]

/-- A state whose buffer is another's with bytes appended reads as the memory's rules for an append say (rules R31,
R35). -/
theorem readByte_of_append {s t : State} {v : List Byte} (h : t.buf = s.buf ++ v) :
    (∀ a, a < s.storeAddr → t.readByte a = s.readByte a) ∧ (∀ a, t.readByte (s.storeAddr + a) = v[a]?) := by
  have hread (a) : t.readByte a = (s.append v).readByte a := congrArg (·[a]?) h
  simp only [hread]
  exact ⟨append_readByte_before s v, append_readByte_after s v⟩

/-- Settles O43: a byte group appends its lane, the other events leave the buffer empty. -/
theorem storesOnlyAtTheBufferEnd : Obligations.StoresOnlyAtTheBufferEnd := by
  intro s t e rest he h
  cases step_next_result he h with
  | enable => exact fun _ => rfl
  | firstGroup g op tail hs hg => exact readByte_of_append (storedLane_of_awaiting hs hg ▸ rfl)
  | laterGroup g c hs => exact readByte_of_append (storedLane_of_classified hs g ▸ rfl)
  | quietDisable hs => exact fun _ => rfl
  | frame c hs hf => exact fun _ => rfl

/-- Settles O44: the time registers of each effect. -/
theorem timesWrittenOnlyByByteGroups : Obligations.TimesWrittenOnlyByByteGroups := by
  intro s t e rest he h
  cases step_next_result he h with
  | enable => cases s.state <;> exact ⟨rfl, rfl⟩
  | firstGroup g op tail hs hg =>
    rw [show s.state = _ from hs]
    exact ⟨rfl, rfl⟩
  | laterGroup g c hs =>
    rw [show s.state = _ from hs]
    exact ⟨rfl, rfl⟩
  | quietDisable hs => exact ⟨rfl, rfl⟩
  | frame c hs hf => exact ⟨rfl, rfl⟩

/-- Two byte groups that agree on what the control state reads have one effect. -/
theorem exec_byteGroup_congr {s : State} {g g' : Group} (h : groupsAgree s.state g g') :
    exec (.byteGroup g) s = exec (.byteGroup g') s := by
  cases hs : s.state with
  | idle => rw [exec_byteGroup_of_idle hs, exec_byteGroup_of_idle hs]
  | awaitingOperationByte =>
    rw [hs] at h
    cases hg : g.toChip with
    | nil =>
      cases hg' : g'.toChip with
      | nil => rw [exec_byteGroup_of_empty hs hg, exec_byteGroup_of_empty hs hg']
      | cons op' tail' => simp only [groupsAgree, hg, hg'] at h
    | cons op tail =>
      cases hg' : g'.toChip with
      | nil => simp only [groupsAgree, hg, hg'] at h
      | cons op' tail' =>
        simp only [groupsAgree, hg, hg'] at h
        obtain ⟨hclass, hts, hlane⟩ := h
        rw [exec_byteGroup_of_awaiting hs hg, exec_byteGroup_of_awaiting hs hg', ← hclass, firstGroup_eq, firstGroup_eq,
          hts, hlane]
  | classified c =>
    rw [hs] at h
    obtain ⟨hte, hlane⟩ := h
    rw [exec_byteGroup_of_classified hs, exec_byteGroup_of_classified hs, hte, hlane]

/-- Settles O49: the step on a group is the group's effect. -/
theorem unreadPartOfGroupIsInvisible : Obligations.UnreadPartOfGroupIsInvisible := by
  intro s g g' rest h
  rw [step_eq_exec (rest := rest) rfl, step_eq_exec (rest := rest) rfl]
  exact exec_byteGroup_congr (s := { s with events := rest }) h

/-- A step is refused exactly outside the contract (rule R149). -/
theorem inContract_eq_false_iff (s : State) : inContract s = false ↔ ∃ r, step s = .refused r := by
  cases he : s.events with
  | nil => simp [step_of_no_event he, inContract, he]
  | cons e rest =>
    obtain ⟨o, ho, hresult⟩ : ∃ o, step s = o ∧ EventResult (s.withEvents rest) e o := ⟨_, rfl, step_result he⟩
    rw [ho]
    cases hresult with
    | groupWhileIdle g hs => exact iff_of_true (by simp only [inContract, he, show s.state = _ from hs]) ⟨_, rfl⟩
    | emptyGroup g hs hg =>
      exact iff_of_true (by simp [inContract, he, show s.state = _ from hs, hg]) ⟨_, rfl⟩
    | firstGroup g op tail hs hg =>
      exact iff_of_false (by simp [inContract, he, show s.state = _ from hs, hg]) (by simp)
    | laterGroup g c hs => exact iff_of_false (by simp [inContract, he, show s.state = _ from hs]) (by simp)
    | enable | quietDisable | shortResponse | frame => exact iff_of_false (by simp [inContract, he]) (by simp)

/-- A step faults exactly at a `Disable` that `shortFault` tells. -/
theorem step_fault_iff (s : State) :
    step s = .fault .shortResponse ↔
      ∃ c rest, s.state = .classified c ∧ s.events = .disable :: rest ∧ shortFault s c s.buf = true := by
  constructor
  · intro h
    cases he : s.events with
    | nil => cases (step_of_no_event he).symm.trans h
    | cons e rest =>
      have hresult : EventResult (s.withEvents rest) e (.fault .shortResponse) := h ▸ step_result he
      cases hresult with
      | shortResponse c hs hf => exact ⟨c, rest, hs, rfl, hf⟩
  · rintro ⟨c, rest, hs, he, hf⟩
    exact (step_eq_exec he).trans ((exec_disable_of_classified (s := s.withEvents rest) hs).trans (if_pos hf))

/-- Inside the contract a step that does not fault answers a next state. -/
theorem step_next_of_not_fault {s : State} (hin : inContract s = true) (hf : step s ≠ .fault .shortResponse) :
    ∃ t, step s = .next t := by
  cases h : step s with
  | next t => exact ⟨t, rfl⟩
  | fault r => exact absurd h hf
  | refused r => exact absurd ((inContract_eq_false_iff s).mpr ⟨r, h⟩) (by simp [hin])

/-- Settles O39: where a step is refused, where it faults, and that it answers everywhere else. -/
theorem stepStopsExactlyOutsideContract : Obligations.StepStopsExactlyOutsideContract := by
  intro s
  refine ⟨inContract_eq_false_iff s, fun hin hd => ?_, fun hin hd => ?_⟩
  · refine step_next_of_not_fault hin fun h => ?_
    obtain ⟨c, _, _, _, hf⟩ := (step_fault_iff s).mp h
    cases (shortFault_default s c s.buf hd).symm.trans hf
  · have hfault := step_fault_iff s
    simp only [shortFault_iff s _ _ hd] at hfault
    exact ⟨hfault.mpr, fun hno => step_next_of_not_fault hin fun h => hno (hfault.mp h)⟩

/-- Settles O45: read off the record. -/
theorem resetLeavesNoCycleOpen : Obligations.ResetLeavesNoCycleOpen := ⟨rfl, rfl, rfl, rfl⟩

end Sys2Proof.Machine
end

section
/-! One whole cycle (spec/40_accumulator.md): enable, a first group, later groups, disable. -/

namespace Sys2Proof.Machine

theorem step_enable {s : State} {rest : List Event} (he : s.events = .enable :: rest) :
    step s = .next (openCycle (s.withEvents rest)) := by
  rw [step_eq_exec he]; exact exec_enable _

theorem step_firstGroup {s : State} {g : Group} {op : Byte} {tail : List Byte} {rest : List Event}
    (he : s.events = .byteGroup g :: rest) (hs : s.state = .awaitingOperationByte) (hg : g.toChip = op :: tail) :
    step s = .next (firstGroup (opClass op) g (s.withEvents rest)) := by
  rw [step_eq_exec he]; exact exec_byteGroup_of_awaiting (s := s.withEvents rest) hs hg

theorem step_laterGroup {s : State} {c : Classified} {g : Group} {rest : List Event}
    (he : s.events = .byteGroup g :: rest) (hs : s.state = .classified c) :
    step s = .next (accumulate c g (s.withEvents rest)) := by
  rw [step_eq_exec he]; exact exec_byteGroup_accumulates (s := s.withEvents rest) hs g

theorem run_succ {s t : State} (h : step s = .next t) (k : Nat) :
    Sys2Proof.core.run (k + 1) s = Sys2Proof.core.run k t := by
  have h' : Sys2Proof.core.step s = .next t := h
  simp only [Host.Core.run, h']

theorem run_one (s : State) : Sys2Proof.core.run 1 s = Sys2Proof.core.step s := by
  simp only [Host.Core.run]
  cases Sys2Proof.core.step s <;> rfl

/-- The last group's `te` counts, and the first group's only where no other follows (rule R15). -/
theorem cycleEnd_cons (before : Option Time) (g : Group) (later : List Group) :
    cycleEnd before (g :: later) = cycleEnd (some g.te) later := by
  cases later with
  | nil => rfl
  | cons g' later =>
    simp only [cycleEnd, List.getLast?_cons_cons]
    rw [List.getLast?_cons]

/-- `s` after the later groups of a cycle of class `c`, with `es` left to deliver (rules R87, R88). -/
def collected (c : Classified) (later : List Group) (es : List Event) (s : State) : State :=
  { s with
    buf := s.buf ++ later.flatMap (fun g => g.bytes (laneOf c)), tEnd := cycleEnd s.tEnd later, events := es }

/-- The steps of the later groups, one after the other, collect them. -/
theorem run_laterGroups {c : Classified} (es : List Event) (k : Nat) (later : List Group) :
    ∀ s : State, s.state = .classified c → s.output = none → s.events = later.map .byteGroup ++ es →
      Sys2Proof.core.run (later.length + k) s = Sys2Proof.core.run k (collected c later es s) := by
  induction later with
  | nil =>
    intro s _ _ he
    have : collected c [] es s = s := by
      simp only [List.map_nil, List.nil_append] at he
      simp only [collected, cycleEnd, List.flatMap_nil, List.append_nil, List.getLast?_nil, ← he]
    rw [this, List.length_nil, Nat.zero_add]
  | cons g later ih =>
    intro s hs ho he
    have hstep : step s = .next (accumulate c g (s.withEvents (later.map .byteGroup ++ es))) :=
      step_laterGroup he hs
    have hcollected : collected c later es (accumulate c g (s.withEvents (later.map .byteGroup ++ es))) =
        collected c (g :: later) es s := by
      rw [accumulate_eq]
      simp only [collected, cycleEnd_cons, List.flatMap_cons, List.append_assoc, State.withEvents, ← ho]
    calc Sys2Proof.core.run ((g :: later).length + k) s
      _ = Sys2Proof.core.run (later.length + k + 1) s := by rw [List.length_cons, Nat.add_right_comm]
      _ = Sys2Proof.core.run (later.length + k) _ := run_succ hstep _
      _ = Sys2Proof.core.run k _ := ih _ hs rfl rfl
      _ = _ := by rw [hcollected]

/-- `s` before the `Disable` of a cycle, which is all that is left to deliver before `rest`. -/
def cycleClosing (c : Classified) (first : Group) (later : List Group) (rest : List Event) (s : State) : State :=
  { s with
    state := .classified c, buf := cycleBuffer c first later, tStart := some first.ts
    tEnd := cycleEnd s.tEnd later, events := rest, output := none }

/-- What is left to deliver after a cycle's first group. -/
def laterEvents (later : List Group) (rest : List Event) : List Event := later.map .byteGroup ++ .disable :: rest

theorem cycleEvents_append (first : Group) (later : List Group) (rest : List Event) :
    cycleEvents first later ++ rest = .enable :: .byteGroup first :: laterEvents later rest := by
  simp [cycleEvents, laterEvents]

/-- `s` after `Enable` and the first group of a cycle of class `c`. -/
def cycleStarted (c : Classified) (first : Group) (es : List Event) (s : State) : State :=
  firstGroup c first (openCycle { s with events := es })

/-- The first two steps of a cycle, from any state (rules R80, R82 to R86). -/
theorem run_start (s : State) {first : Group} {op : Byte} {tail : List Byte} (es : List Event) (k : Nat)
    (hop : first.toChip = op :: tail) :
    Sys2Proof.core.run (k + 1 + 1) { s with events := .enable :: .byteGroup first :: es } =
      Sys2Proof.core.run k (cycleStarted (opClass op) first es s) := by
  have henable : step { s with events := .enable :: .byteGroup first :: es } =
      .next (openCycle { s with events := .byteGroup first :: es }) := step_enable rfl
  have hfirst : step (openCycle { s with events := .byteGroup first :: es }) =
      .next (cycleStarted (opClass op) first es s) := step_firstGroup rfl rfl hop
  exact (run_succ henable _).trans (run_succ hfirst k)

/-- The groups of a cycle leave what its `Disable` reads, whatever the state before the cycle. -/
theorem collected_cycleStarted (c : Classified) (first : Group) (later : List Group) (es rest : List Event)
    (s : State) :
    collected c later (.disable :: rest) (cycleStarted c first es s) =
      { cycleClosing c first later rest s with events := .disable :: rest } := by
  rw [cycleStarted, firstGroup_eq]
  rfl

/-- The steps of a whole cycle come to the `Disable` on what the cycle's own groups have left. -/
theorem run_cycle (s : State) {first : Group} (later : List Group) {op : Byte} {tail : List Byte} (rest : List Event)
    (hop : first.toChip = op :: tail) :
    Sys2Proof.core.run (cycleEvents first later).length { s with events := cycleEvents first later ++ rest } =
      exec .disable (cycleClosing (opClass op) first later rest s) := by
  have hlen : (cycleEvents first later).length = later.length + 1 + 1 + 1 := by simp [cycleEvents]
  have hclose : step { cycleClosing (opClass op) first later rest s with events := .disable :: rest } =
      exec .disable (cycleClosing (opClass op) first later rest s) := step_eq_exec (e := .disable) rfl
  rw [hlen, cycleEvents_append, ← hclose, ← collected_cycleStarted _ _ _ (laterEvents later rest)]
  calc Sys2Proof.core.run (later.length + 1 + 1 + 1)
        { s with events := .enable :: .byteGroup first :: laterEvents later rest }
    _ = Sys2Proof.core.run (later.length + 1) (cycleStarted (opClass op) first (laterEvents later rest) s) :=
      run_start s _ _ hop
    _ = Sys2Proof.core.run 1 _ := run_laterGroups (.disable :: rest) 1 later _ rfl rfl rfl
    _ = Sys2Proof.core.step _ := run_one _

/-- Settles O50: under the default of U4 the `Disable` emits the frame. -/
theorem cycleIsDecodedOnItsOwn : Obligations.CycleIsDecodedOnItsOwn := by
  rintro s first later op tail rest c f hop rfl hd rfl
  rw [run_cycle s later rest hop]
  exact disableEmitsTheParsedFrame (cycleClosing (opClass op) first later rest s) _ rfl hd

/-- Settles O60: under the other value it does so where the cycle's own bytes are not the six byte response read. -/
theorem cycleUnderFaultingShortResponse : Obligations.CycleUnderFaultingShortResponse := by
  rintro s first later op tail rest c f hop rfl hd rfl
  rw [run_cycle s later rest hop, exec_disable_of_classified rfl]
  have hfault := shortFault_iff (cycleClosing (opClass op) first later rest s) (opClass op)
    (cycleBuffer (opClass op) first later) hd
  exact ⟨fun hsix => if_pos (hfault.mpr hsix), fun hsix => if_neg (mt hfault.mp hsix)⟩

end Sys2Proof.Machine
end

section
/-! The opcode table as a decoder of its own (spec/30_encoding.md section 8, rules R67 and R115). -/

namespace Sys2Proof.Machine

/-- A pattern's first byte speaks of the buffer's first byte. -/
theorem maskedEq_cons_iff {m k : Byte} {ms ks b : List Byte} :
    maskedEq (m :: ms) (k :: ks) b = true ↔ ∃ x xs, b = x :: xs ∧ x &&& k = m ∧ maskedEq ms ks xs = true := by
  cases b with
  | nil => simp [maskedEq]
  | cons x xs => simp [maskedEq]

/-- The whole mask keeps a byte. -/
theorem and_wholeMask (x : Byte) : x &&& 0xFF = x := BitVec.and_allOnes

/-- Under whole masks a pattern is how the buffer begins. -/
theorem maskedEq_whole_iff {p b : List Byte} :
    maskedEq p (p.map fun _ => 0xFF) b = true ↔ ∃ rest, b = p ++ rest := by
  induction p generalizing b with
  | nil => simp [maskedEq]
  | cons m ms ih =>
    simp only [List.map_cons, maskedEq_cons_iff, ih, and_wholeMask, List.cons_append]
    constructor
    · rintro ⟨_, _, rfl, rfl, rest, rfl⟩
      exact ⟨rest, rfl⟩
    · rintro ⟨rest, rfl⟩
      exact ⟨m, _, rfl, rfl, rest, rfl⟩

/-- The response rows' pattern leaves two bytes free (rule R106). -/
theorem exists_of_responsePattern {b : List Byte}
    (h : maskedEq [0x00, 0x00, 0xFF, 0x00, 0x00, 0xD5] [0xFF, 0xFF, 0xFF, 0x00, 0x00, 0xFF] b = true) :
    ∃ len lcs rest, b = preamble ++ len :: lcs :: respDirection :: rest := by
  simp only [maskedEq_cons_iff, and_wholeMask] at h
  obtain ⟨_, _, rfl, rfl, _, _, rfl, rfl, _, _, rfl, rfl, len, _, rfl, -, lcs, _, rfl, -, _, rest, rfl, rfl, -⟩ := h
  exact ⟨len, lcs, rest, rfl⟩

/-- The write row's pattern is the direction code at index 5 (rule R109). -/
theorem hasCmdDirection_of_writePattern {b : List Byte}
    (h : maskedEq [0x00, 0x00, 0x00, 0x00, 0x00, 0xD4] [0x00, 0x00, 0x00, 0x00, 0x00, 0xFF] b = true) :
    hasCmdDirection b = true := by
  simp only [maskedEq_cons_iff, and_wholeMask] at h
  obtain ⟨_, _, rfl, -, _, _, rfl, -, _, _, rfl, -, _, _, rfl, -, _, _, rfl, -, _, _, rfl, rfl, -⟩ := h
  rfl

/-- What a row's conditions are (rule R67). -/
theorem frameRowTakes_iff {r : FrameRow} {st : Classified} {b : List Byte} :
    frameRowTakes r st b = true ↔
      ((st ∈ r.states ∧ lenHolds r.len b.length = true) ∧ maskedEq r.pattern r.mask b = true) ∧
        (r.lengthCond = true → lengthAboveOne b = true) := by
  simp only [frameRowTakes, Bool.and_eq_true, List.contains_iff_mem, Bool.or_eq_true, Bool.not_eq_true',
    ← Bool.not_eq_true, ← imp_iff_not_or]

/-- A buffer that a row other than the fallback takes has the shape of that row. -/
theorem shape_of_frameRowTakes (cfg : Config) {r : FrameRow} (hr : r ∈ frameRows) (hp : r.priority < 99)
    {st : Classified} {b : List Byte} (h : frameRowTakes r st b = true) : ∃ i f, Shape cfg st b i f ∧ mnemonic i = r.mnemonic := by
  obtain ⟨⟨⟨hst, hlen⟩, hmask⟩, hcond⟩ := frameRowTakes_iff.mp h
  simp only [frameRows, List.cons_append, List.nil_append, List.mem_cons, List.not_mem_nil, or_false] at hr
  rcases hr with rfl | rfl | rfl | rfl | rfl | rfl | rfl | rfl | rfl
  · -- STATUS
    obtain rfl := List.mem_singleton.mp hst
    obtain ⟨v, rfl⟩ := List.length_eq_one_iff.mp (beq_iff_eq.mp hlen)
    exact ⟨_, _, .status v, rfl⟩
  · -- ACK_READ
    obtain rfl := List.mem_singleton.mp hst
    obtain ⟨rest, rfl⟩ := (maskedEq_whole_iff (p := preamble ++ ackCode)).mp hmask
    exact ⟨_, _, .ackRead rest, rfl⟩
  · -- NACK_READ
    obtain rfl := List.mem_singleton.mp hst
    obtain ⟨rest, rfl⟩ := (maskedEq_whole_iff (p := preamble ++ nackCode)).mp hmask
    exact ⟨_, _, .nackRead rest, rfl⟩
  · -- RESP
    obtain rfl := List.mem_singleton.mp hst
    obtain ⟨len, lcs, rest, rfl⟩ := exists_of_responsePattern hmask
    cases rest with
    | nil => simp [lenHolds, preamble] at hlen
    | cons pd0 tail => exact ⟨_, _, .resp len lcs pd0 tail, rfl⟩
  · -- RESP_SHORT
    obtain rfl := List.mem_singleton.mp hst
    obtain ⟨len, lcs, rest, rfl⟩ := exists_of_responsePattern hmask
    cases rest with
    | nil => exact ⟨_, _, .respShort len lcs, rfl⟩
    | cons pd0 tail => simp [lenHolds, preamble] at hlen
  · -- CMD_WRITE
    obtain rfl := List.mem_singleton.mp hst
    have hshape : shape3 b = true :=
      Bool.and_eq_true_iff.mpr ⟨Bool.and_eq_true_iff.mpr ⟨hlen, hcond rfl⟩, hasCmdDirection_of_writePattern hmask⟩
    obtain ⟨b0, b1, b2, len, lcs, pd0, rest, hw, rfl⟩ := shape3_iff.mp hshape
    exact ⟨_, _, .cmdWrite b0 b1 b2 len lcs pd0 rest hw, rfl⟩
  · -- ACK_RAW
    obtain rfl := List.mem_singleton.mp hst
    obtain ⟨rest, rfl⟩ := (maskedEq_whole_iff (p := preamble ++ ackCode)).mp hmask
    obtain rfl : rest = [] := by simpa [lenHolds, preamble, ackCode] using hlen
    exact ⟨_, _, .ackRaw, rfl⟩
  · -- NACK_RAW
    obtain rfl := List.mem_singleton.mp hst
    obtain ⟨rest, rfl⟩ := (maskedEq_whole_iff (p := preamble ++ nackCode)).mp hmask
    obtain rfl : rest = [] := by simpa [lenHolds, preamble, nackCode] using hlen
    exact ⟨_, _, .nackRaw, rfl⟩
  · -- RAW_FALLBACK
    exact absurd hp (by decide)

/-- So such a row is the row of the decoder. -/
theorem mnemonic_eq_of_frameRowTakes {r : FrameRow} (hr : r ∈ frameRows) (hp : r.priority < 99) {st : Classified}
    {b : List Byte} (h : frameRowTakes r st b = true) : r.mnemonic = mnemonic (decodeFrame st b) := by
  obtain ⟨i, f, hshape, hm⟩ := shape_of_frameRowTakes defaultConfig hr hp h
  rw [hshape.decodeFrame_eq, hm]

/-- No two rows have one mnemonic. -/
theorem frameRows_mnemonic_injective : ∀ r ∈ frameRows, ∀ r' ∈ frameRows, r.mnemonic = r'.mnemonic → r = r' := by
  decide

/-- Settles O55: both rows are the row of the decoder. -/
theorem shapeRowsExcludeEachOther : Obligations.ShapeRowsExcludeEachOther :=
  fun r hr r' hr' hp hp' _ _ h h' => frameRows_mnemonic_injective r hr r' hr'
    ((mnemonic_eq_of_frameRowTakes hr hp h).trans (mnemonic_eq_of_frameRowTakes hr' hp' h').symm)

/-- The instruction a buffer decodes to fits a row of the table, the row of its name. -/
theorem exists_fitting_row (st : Classified) (b : List Byte) :
    ∃ r ∈ frameRows, r.mnemonic = mnemonic (decodeFrame st b) ∧ frameRowTakes r st b = true := by
  obtain ⟨i, f, h⟩ := exists_shape defaultConfig st b
  have fit (hfit : Laws.TableFit.Statement i) :
      ∃ r ∈ frameRows, r.mnemonic = mnemonic i ∧ frameRowTakes r st b = true := by
    have := hfit h.wf
    rwa [h.encode_eq] at this
  rw [h.decodeFrame_eq]
  cases h with
  | status v => exact fit (Laws.TableFit.status v)
  | ackRead rest => exact fit (Laws.TableFit.ackRead rest)
  | nackRead rest => exact fit (Laws.TableFit.nackRead rest)
  | resp len lcs pd0 rest => exact fit (Laws.TableFit.resp len lcs pd0 rest)
  | respShort len lcs => exact fit (Laws.TableFit.respShort len lcs)
  | cmdWrite b0 b1 b2 len lcs pd0 rest hw => exact fit (Laws.TableFit.cmdWrite b0 b1 b2 len lcs pd0 rest)
  | ackRaw => exact fit Laws.TableFit.ackRaw
  | nackRaw => exact fit Laws.TableFit.nackRaw
  | rawFallback st b h => exact fit (Laws.TableFit.rawFallback st b)

/-- The fallback is the table's last row, and the one of priority 99. -/
theorem frameRows_eq : ∃ heads fallback, frameRows = heads ++ [fallback] ∧ (∀ r ∈ heads, r.priority < 99) :=
  ⟨frameRows.take 8, frameRows[8], rfl, by decide⟩

/-- Settles O54: the first row that takes the buffer is the decoder's, or no row but the fallback takes it, and then the
decoder's is that. -/
theorem tableSelectsTheDecodedRow : Obligations.TableSelectsTheDecodedRow := by
  intro st b
  obtain ⟨heads, fallback, hrows, hheads⟩ := frameRows_eq
  obtain ⟨r, hr, hname, htakes⟩ := exists_fitting_row st b
  rw [selectFrameRow, ← hname]
  cases hfound : heads.find? (fun r => frameRowTakes r st b) with
  | some r' =>
    have hmem := List.mem_of_find?_eq_some hfound
    have hr' : r' ∈ frameRows := hrows ▸ List.mem_append_left _ hmem
    have htakes' : frameRowTakes r' st b = true := by simpa using List.find?_some hfound
    rw [hrows, List.find?_append, hfound, hname,
      ← mnemonic_eq_of_frameRowTakes hr' (hheads r' hmem) htakes']
    rfl
  | none =>
    have hnot : r ∉ heads := fun hmem => by simpa [htakes] using List.find?_eq_none.mp hfound r hmem
    obtain rfl : r = fallback := by
      rw [hrows, List.mem_append, List.mem_singleton] at hr
      exact hr.resolve_left hnot
    rw [hrows, List.find?_append, hfound]
    simp [htakes]

/-- Settles O57: each word by running the decoder. -/
theorem sampleWordsDecode : Obligations.SampleWordsDecode := ⟨rfl, rfl, rfl, rfl, rfl⟩

end Sys2Proof.Machine
end
